-- ==== Sys2Proof/Word.lean ====
section
/-!
DEFINITION. The word types of the DL-840 model.
Bit vectors hold what the manual shifts, masks or lets wrap: bytes of frames, epoch numbers, plan numbers and
revisions, sets sent as masks. Frequencies, gains, counts and tune words are numbers (Nat), levels and sums are Int.
-/

namespace Sys2Proof

/-- A byte of a frame (R184). -/
abbrev Byte := BitVec 8

/-- An epoch number, plan number or revision: 0 to 65,535, wrapping (R4, R40). -/
abbrev Word16 := BitVec 16

/-- A mask of three bytes: an attention mask (R166) or REPORT_SELECT (R181). -/
abbrev Mask24 := BitVec 24

/-- A channel number 0 to 7 (00_scope.md, conventions). -/
abbrev Chan := Fin 8

/-- A fault line number, FL0 to FL7 (R136). -/
abbrev Line := Fin 8

/-- A condition slot number 0 to 74 (R158). -/
abbrev SlotNo := Fin 75

end Sys2Proof
end

