-- ==== Sys2Proof/Syntax.lean ====
section
/-!
DEFINITION. The commands of the DL-840: one constructor of Instr for each of the 112 steps of spec/opcode_table.json.

A command is either something that happens at the part's edge (bytes arrive on a port, a sample word ends, a pin
changes, a timer expires, the supply or RESETN changes) and then carries what arrived, or the taking by one block of a
message another block has sent it (95_what_each_step_holds.md) and then carries only whose message is taken: the
message itself stands in State.transit. Log entries 1 to 4.
-/

namespace Sys2Proof

/-- The three request ports (00_scope.md); codes 0, 1, 2 in frames (R179). -/
inductive Port where
  | a | b | s
  deriving DecidableEq, Repr

/-- The two synchronous serial ports (R173). -/
inductive SyncPort where
  | a | b
  deriving DecidableEq, Repr

/-- The receive or the transmit side of a channel: its synthesizer and its lock line (R68, R98). -/
inductive Side where
  | rx | tx
  deriving DecidableEq, Repr

/-- The blocks an INITIALIZE reaches (R134). -/
inductive InitBlock where
  | planController | sequencerBlock | levelMonitor | faultLineMonitor | conditionTable
  deriving DecidableEq, Repr

/-- An input window of a licence entry, held as a pair (R21). -/
structure InputWindow where
  low : Nat
  high : Nat
  deriving DecidableEq, Repr

/-- A licence entry (R21): frequencies in kHz, the ceiling in gain steps, the input window optional. -/
structure LicenceEntry where
  txLow : Nat
  txHigh : Nat
  gainCeiling : Nat
  input : Option InputWindow
  deriving DecidableEq, Repr

/-- A licence table: 16 slots, each empty or holding an entry (R22). -/
abbrev LicenceTable := Vector (Option LicenceEntry) 16

/-- What stands at the pins at the end of a hardware reset: the straps (R171, R175), whether SELA and SELB are asserted
(R183) and whether SPFR is (R125), the lock lines (R96) and the fault pins, true for HIGH (R142). Log entry 14. -/
structure PinSample where
  unitAddress : BitVec 4
  baud : BitVec 2
  selA : Bool
  selB : Bool
  sampleFrame : Bool
  lockRx : Vector Bool 8
  lockTx : Vector Bool 8
  faultHigh : Vector Bool 8
  deriving DecidableEq, Repr

/-- The bits of a word of the Sample Port, first bit first: those clocked before and those clocked after the end of a
hardware reset that the word straddles (R108, R125, log entry 18). -/
structure WordBits where
  before : List Bool
  after : List Bool
  deriving DecidableEq, Repr

/-- The commands, in the order of spec/opcode_table.json. -/
inductive Instr where
  /-- HARDWARE_RESET (R135). Power-on or RESETN assertion puts every block into its reset values, the site in STANDBY with cause RESET, and starts the start-up load. -/
  | hardwareReset
  /-- START_UP_LOAD_END (R33). At the end of the start-up load the Licence Store sets and records its store state from the recorded state and check value, reporting LICENCE_FAILED if INCOMPLETE. -/
  | startUpLoadEnd (read : LicenceTable)
  /-- REQUEST_FRAME_COMPLETE (R172). A Port Interface judges a complete request frame and refuses it during the load, discards it, answers UNKNOWN_REQUEST or MALFORMED, or dispatches it to its owner. -/
  | requestFrameComplete (port : Port) (bytes : List Byte)
  /-- PORT_READ_TRANSFER (R173). A READ transfer byte on Port A or B takes and empties the response slot and clocks out its frame or EMPTY_SLOT. -/
  | portReadTransfer (port : SyncPort)
  /-- SELECT_PERIOD_END (R173). Deassertion of SELA or SELB ends the transaction, discarding a request frame whose check byte has not arrived. -/
  | selectPeriodEnd (port : SyncPort)
  /-- PORT_S_IDLE_DETECT (R175). Three character times of idle on SRXD make the Port S receiver ready, or discard a frame in progress. -/
  | portSIdleDetect
  /-- PORT_S_FRAMING_ERROR (R175). A character whose stop bit reads 0 during IN_FRAME discards the frame and returns the receiver to WAITING_IDLE. -/
  | portSFramingError
  /-- RESPONSE_TRANSMISSION_END (R176). When a Port S response finishes transmission, a waiting response is sent after three character times of idle. -/
  | responseTransmissionEnd
  /-- IDENTIFY (R179). Returns the part code, silicon revision, strapped unit address and arrival port. -/
  | identify (port : Port) (bytes : List Byte)
  /-- READ_STATUS (R180). Returns site mode, standby cause, roles, pending activation, readiness, store state, epoch counter, plan number, revision and report queue count. -/
  | readStatus (port : Port) (bytes : List Byte)
  /-- CLAIM (R146). Makes an IDLE port HOLDER when no holder exists, or renews the holder's count. -/
  | claim (port : Port)
  /-- RESERVE (R147). Makes Port A or B RESERVE beside a holder, or renews an existing reserve. -/
  | reserve (port : Port)
  /-- RELEASE (R148). Makes the requesting port IDLE, handing authority to a reserve if the holder releases. -/
  | release (port : Port)
  /-- KEEPALIVE (R149). Resets the keepalive count of a HOLDER or RESERVE port, or refuses an IDLE port with NO_ROLE. -/
  | keepalive (port : Port)
  /-- STAGE_ENTRY (R10). Writes a checked plan entry into the staged plan, and in PER_ENTRY mode also into the active plan. -/
  | stageEntry (port : Port)
  /-- STAGE_CLEAR (R12). Writes the default entry into all eight positions of the staged plan. -/
  | stageClear (port : Port)
  /-- STAGE_COPY (R13). Makes the staged plan a copy of the active plan. -/
  | stageCopy (port : Port)
  /-- READ_ENTRY (R16). Returns one entry of the staged or active plan with the active plan number and revision. -/
  | readEntry (port : Port)
  /-- ARM_ACTIVATION (R50). Validates the staged plan and creates a pending activation record for a target epoch. -/
  | armActivation (port : Port)
  /-- DISARM (R53). Removes the pending activation record and returns its plan number and target. -/
  | disarm (port : Port)
  /-- ACTIVATE_NOW (R54). Validates the staged plan and, if ready in OPERATE or in STANDBY, carries out an activation at once. -/
  | activateNow (port : Port)
  /-- RESTART_CHANNEL (R88). Takes a channel in SHUTDOWN back to TUNING when no latched SHUTDOWN line bound to it remains. -/
  | restartChannel (port : Port) (channel : Byte)
  /-- READ_CHANNEL (R95). Returns the channel record, lock levels and gate level of one channel. -/
  | readChannel (port : Port) (channel : Byte)
  /-- SET_MODE_OPERATE (R128). Checks role, mode, initialize mark, store, standby lines and active plan, then enters OPERATE and sends site starts. -/
  | setModeOperate (port : Port)
  /-- SET_MODE_STANDBY (R130). From the holder, enters STANDBY with cause REQUEST if in OPERATE, else answers DONE with no change. -/
  | setModeStandby (port : Port)
  /-- SITE_STANDBY (R130). From any port, addressed or broadcast on Port S, enters STANDBY with cause EMERGENCY if in OPERATE. -/
  | siteStandby (port : Port)
  /-- INITIALIZE (R134). In STANDBY sets the initialize mark and sends initialize notices to five blocks. -/
  | initializeSite (port : Port)
  /-- INITIALIZE_NOTICE_REPORT (R134). A block reports to Mode Control that it has taken its initialize notice, and the mark clears at the last report. -/
  | initializeNoticeReport (block : InitBlock)
  /-- PLAN_CONTROLLER_INITIALIZE (R20). The Plan Controller removes a pending record with ACTIVATION_ABANDONED, restores plan defaults and sends entry changes to differing channels. -/
  | planControllerInitialize
  /-- SEQUENCER_PARAMETERS_INITIALIZE (R97). The Channel Sequencer block sets the six site-wide parameters to their defaults. -/
  | sequencerParametersInitialize
  /-- LEVEL_MONITOR_INITIALIZE (R126). The Level Monitor clears accumulators, latest results, report queue and loss mark and restores measurement defaults. -/
  | levelMonitorInitialize
  /-- FAULT_LINE_INITIALIZE (R142). The Fault Line Monitor sets every line's configuration to defaults and re-evaluates each line. -/
  | faultLineInitialize
  /-- CONDITION_TABLE_INITIALIZE (R170). The Condition Table clears every slot and latch, keeps masks and modes, and forms the lines anew. -/
  | conditionTableInitialize
  /-- CONFIGURE_APPLY_MODE (R17). Sets APPLY_MODE to WHOLE_PLAN or PER_ENTRY unless an activation is pending. -/
  | configureApplyMode (port : Port)
  /-- CONFIGURE_RASTER (R18). Sets RASTER to 1 to 1,000 kHz in STANDBY. -/
  | configureRaster (port : Port)
  /-- CONFIGURE_KEEPALIVE_LIMIT (R155). Sets KEEPALIVE_LIMIT and resets the count of every port holding a role. -/
  | configureKeepaliveLimit (port : Port)
  /-- CONFIGURE_TUNE_LIMIT (R70). Sets the site-wide TUNE_LIMIT used for lock timeout. -/
  | configureTuneLimit (port : Port)
  /-- CONFIGURE_SETTLE_EPOCHS (R70). Sets the site-wide SETTLE_EPOCHS used for settling expiry. -/
  | configureSettleEpochs (port : Port)
  /-- CONFIGURE_FOLDBACK_STEP (R70). Sets the site-wide FOLDBACK_STEP used in foldback and recovery. -/
  | configureFoldbackStep (port : Port)
  /-- CONFIGURE_RECOVER_WINDOWS (R70). Sets the site-wide RECOVER_WINDOWS used in foldback recovery. -/
  | configureRecoverWindows (port : Port)
  /-- CONFIGURE_REFL_LIMIT (R70). Sets the site-wide REFL_LIMIT for entries without refl_limit. -/
  | configureReflLimit (port : Port)
  /-- CONFIGURE_CARRIER_FLOOR (R70). Sets the site-wide CARRIER_FLOOR used for NO_CARRIER. -/
  | configureCarrierFloor (port : Port)
  /-- CONFIGURE_WINDOW_LENGTH (R124). Sets WINDOW_LENGTH in STANDBY when every channel is OFF and every accumulator empty. -/
  | configureWindowLength (port : Port)
  /-- CONFIGURE_SAMPLE_FORMAT (R124). Sets SAMPLE_FORMAT in STANDBY when every channel is OFF and every accumulator empty. -/
  | configureSampleFormat (port : Port)
  /-- CONFIGURE_REPORT_SELECT (R123). Sets the set of (channel, quantity) pairs whose results are offered as reports. -/
  | configureReportSelect (port : Port)
  /-- CONFIGURE_REPORT_THRESHOLD (R123). Sets the report queue depth at which REPORTS_WAITING is reported. -/
  | configureReportThreshold (port : Port)
  /-- CONFIGURE_LINE (R138). In STANDBY replaces one fault line's four fields and re-evaluates whether it is asserted. -/
  | configureLine (port : Port)
  /-- CONFIGURE_EPOCH_PERIOD (R45). A CONFIGURE naming the read-only EPOCH_PERIOD is refused. -/
  | configureEpochPeriod (port : Port)
  /-- CONFIGURE_LATEST_RESULT (R115). A CONFIGURE naming the read-only LATEST_RESULT is refused with READ_ONLY. -/
  | configureLatestResult (port : Port)
  /-- CONFIGURE_ATTENTION (R166). A CONFIGURE naming the read-only ATTENTION is refused with READ_ONLY. -/
  | configureAttention (port : Port)
  /-- READ_CONFIG_APPLY_MODE (R181). Returns APPLY_MODE. -/
  | readConfigApplyMode (port : Port)
  /-- READ_CONFIG_RASTER (R181). Returns RASTER. -/
  | readConfigRaster (port : Port)
  /-- READ_CONFIG_KEEPALIVE_LIMIT (R155). Returns KEEPALIVE_LIMIT. -/
  | readConfigKeepaliveLimit (port : Port)
  /-- READ_CONFIG_TUNE_LIMIT (R70). Returns TUNE_LIMIT. -/
  | readConfigTuneLimit (port : Port)
  /-- READ_CONFIG_SETTLE_EPOCHS (R70). Returns SETTLE_EPOCHS. -/
  | readConfigSettleEpochs (port : Port)
  /-- READ_CONFIG_FOLDBACK_STEP (R70). Returns FOLDBACK_STEP. -/
  | readConfigFoldbackStep (port : Port)
  /-- READ_CONFIG_RECOVER_WINDOWS (R70). Returns RECOVER_WINDOWS. -/
  | readConfigRecoverWindows (port : Port)
  /-- READ_CONFIG_REFL_LIMIT (R70). Returns REFL_LIMIT. -/
  | readConfigReflLimit (port : Port)
  /-- READ_CONFIG_CARRIER_FLOOR (R70). Returns CARRIER_FLOOR. -/
  | readConfigCarrierFloor (port : Port)
  /-- READ_CONFIG_WINDOW_LENGTH (R181). Returns WINDOW_LENGTH. -/
  | readConfigWindowLength (port : Port)
  /-- READ_CONFIG_SAMPLE_FORMAT (R181). Returns SAMPLE_FORMAT. -/
  | readConfigSampleFormat (port : Port)
  /-- READ_CONFIG_REPORT_SELECT (R181). Returns REPORT_SELECT. -/
  | readConfigReportSelect (port : Port)
  /-- READ_CONFIG_REPORT_THRESHOLD (R181). Returns REPORT_THRESHOLD. -/
  | readConfigReportThreshold (port : Port)
  /-- READ_CONFIG_LINE (R138). Returns one line's configuration, filtered level and asserted state. -/
  | readConfigLine (port : Port)
  /-- READ_CONFIG_EPOCH_PERIOD (R45). Returns PRESCALE, MODULO and the epoch counter. -/
  | readConfigEpochPeriod (port : Port)
  /-- READ_CONFIG_LATEST_RESULT (R115). Returns a pair's accumulator count and latest window result or its absence. -/
  | readConfigLatestResult (port : Port)
  /-- READ_CONFIG_ATTENTION (R166). Returns the requesting port's attention mask, mode and latch. -/
  | readConfigAttention (port : Port)
  /-- SET_EPOCH (R43). Sets PRESCALE and MODULO and discards the partial epoch, leaving the counter unchanged. -/
  | setEpoch (port : Port)
  /-- READ_CONDITIONS (R162). Returns up to eight latched slots from a start slot and marks the port in their seen-by sets. -/
  | readConditions (port : Port)
  /-- CLEAR_CONDITIONS (R163). Clears listed slots the port has read since their latest occurrence, or makes an asserted EDGE_AND_LEVEL line slot clear-pending. -/
  | clearConditions (port : Port)
  /-- SET_ATTENTION (R166). Replaces the requesting port's attention mask and mode. -/
  | setAttention (port : Port)
  /-- ACKNOWLEDGE (R168). Clears the requesting port's attention latch and forms its line anew. -/
  | acknowledge (port : Port)
  /-- READ_REPORTS (R120). Removes and returns up to n oldest report records. -/
  | readReports (port : Port)
  /-- FLUSH_REPORTS (R121). Removes every record from the report queue. -/
  | flushReports (port : Port)
  /-- LICENCE_ENTRY (R25). Writes or empties one slot of the working licence table while the store is BLANK. -/
  | licenceEntry (port : Port)
  /-- LICENCE_COMMIT (R26). Sets the store to PROGRAMMING and begins writing the working table into the stored table. -/
  | licenceCommit (port : Port)
  /-- LICENCE_ERASE (R28). Sets the store to ERASING and begins erasing the stored table. -/
  | licenceErase (port : Port)
  /-- READ_LICENCE (R31). Returns one slot of the stored or working licence table and the store state. -/
  | readLicence (port : Port)
  /-- PROGRAMMING_COMPLETION (R27). 250 ms after a commit the stored table is verified, giving PROTECTED with LICENCE_DONE or INCOMPLETE with LICENCE_FAILED. -/
  | programmingCompletion (readBack : LicenceTable)
  /-- ERASE_COMPLETION (R29). 400 ms after an erase the stored table is empty, the store BLANK, and LICENCE_DONE is reported. -/
  | eraseCompletion
  /-- EPOCH_END (R40). When the position reaches the period the counter is incremented, the position reset and an epoch tick emitted. -/
  | epochEnd
  /-- PLAN_CONTROLLER_TICK (R58). The Plan Controller takes an epoch tick and tests, defers or removes a pending activation. -/
  | planControllerTick
  /-- ACTIVATION_ABANDONED (R61). When the overdue count reaches 32 with readiness failing, the record is removed and ACTIVATION_ABANDONED reported. -/
  | activationAbandoned
  /-- STANDBY_NOTICE (R63). The Plan Controller takes the standby notice and removes a pending record with ACTIVATION_ABANDONED. -/
  | standbyNotice
  /-- SEQUENCER_TICK (R76). A sequencer takes an epoch tick, advancing tune, blanking or settle counts or a gain ramp by its state. -/
  | sequencerTick (channel : Chan)
  /-- LOCK_TIMEOUT (R76). When the tune count reaches TUNE_LIMIT the channel enters SHUTDOWN and LOCK_TIMEOUT is reported. -/
  | lockTimeout (channel : Chan)
  /-- BLANKING_END (R76). When the blanking count reaches 2 the sub-phase becomes WAITING_LOCK, entering SETTLING if both locks are asserted. -/
  | blankingEnd (channel : Chan)
  /-- SETTLING_EXPIRY (R78). When the settle count reaches SETTLE_EPOCHS the channel enters ON_AIR or SQUELCHED by the settling mean. -/
  | settlingExpiry (channel : Chan)
  /-- AUTHORITY_TICK (R150). The Authority Unit takes an epoch tick and raises the count of each port holding a role. -/
  | authorityTick
  /-- KEEPALIVE_LAPSE (R150). A port whose count reaches KEEPALIVE_LIMIT loses its role, with handover to a surviving reserve and the lapse conditions reported. -/
  | keepaliveLapse
  /-- ENTRY_CHANGE (R92). A sequencer takes an entry change, replacing its working entry and acting by its state and the new frequencies and service. -/
  | entryChange (channel : Chan)
  /-- SITE_START (R90). A sequencer takes site start and, in OFF with an in-service entry, enters TUNING. -/
  | siteStart (channel : Chan)
  /-- SITE_STOP (R90). A sequencer takes site stop and enters OFF from any other state. -/
  | siteStop (channel : Chan)
  /-- LOCK_LINE_CHANGE (R77). A change of LKRn or LKTn is recorded and, by state, enters SETTLING or causes lock loss. -/
  | lockLineChange (channel : Chan) (side : Side) (asserted : Bool)
  /-- TUNE_WRITE_COMPLETION (R75). A sequencer takes a write completion, marking a side written when its value equals the demanded word and entering BLANKING when both are written. -/
  | tuneWriteCompletion (channel : Chan)
  /-- RX_RESULT (R81). A sequencer takes an RX window result and, if governing, updates settling, below-count or opens the squelch. -/
  | rxResult (channel : Chan)
  /-- REFL_RESULT (R83). A sequencer takes its REFL result and folds back, shuts down or counts toward recovery. -/
  | reflResult (channel : Chan)
  /-- FWD_RESULT (R85). A sequencer takes its FWD result and reports NO_CARRIER if the mean is below CARRIER_FLOOR at full gain. -/
  | fwdResult (channel : Chan)
  /-- FAULT_SHUTDOWN (R87). A sequencer takes a fault shutdown and enters SHUTDOWN, reporting FAULT_SHUTDOWN unless OFF. -/
  | faultShutdown (channel : Chan)
  /-- WRITE_DEMAND (R100). The link takes a sequencer's write demands, replacing a queued record in place or joining the tail. -/
  | writeDemand (channel : Chan)
  /-- LINK_WRITE_COMPLETE (R102). 40 µs after it started a write completes, its completion is sent to the owning sequencer and the next head starts. -/
  | linkWriteComplete
  /-- SAMPLE_ARRIVAL (R108). The end of a Sample Port word is judged by tags and channel state, converted and added to its accumulator. -/
  | sampleArrival (bits : WordBits)
  /-- OFF_NOTICE (R117). The Level Monitor takes a channel's OFF notice, emptying its three accumulators and latest results. -/
  | offNotice (channel : Chan)
  /-- FAULT_PIN_CHANGE (R136). A pin level differing from the filtered level begins a 1 ms filter interval, and a return drops it. -/
  | faultPinChange (line : Line) (high : Bool)
  /-- FILTER_INTERVAL_END (R136). A change lasting the full 1 ms interval becomes the filtered level, a filter event that asserts or deasserts the line. -/
  | filterIntervalEnd (line : Line)
  /-- FAULT_STANDBY (R131). Mode Control takes a fault standby and enters STANDBY with cause FAULT_LINE if in OPERATE. -/
  | faultStandby (line : Line)
  /-- OCCURRENCE (R160). The Condition Table latches a slot, counts and stamps it, empties seen-by and sets the latches of masked ports. -/
  | occurrence (slot : SlotNo)
  /-- DEASSERTION_NOTICE (R164). The Condition Table takes a line's deassertion notice and clears its slot if clear-pending. -/
  | deassertionNotice (line : Line)
  /-- END_OF_HARDWARE_RESET (R107). At the end of the reset the link starts the head of its 24 reset writes, the first epoch and the start-up load begin, fault-line filtering begins and the straps are sampled. -/
  | endOfHardwareReset (pins : PinSample)
  /-- LOSS_OF_SUPPLY (R32). Loss of supply interrupts an erase or programming in flight, leaving ERASING or PROGRAMMING recorded, and loses all volatile state until power returns. -/
  | lossOfSupply
  /-- LENGTH_BYTE_ABOVE_60 (R175). A received length byte above 60 discards the frame at once, and on Port S returns the receiver to WAITING_IDLE. -/
  | lengthByteAbove60 (port : Port) (length : Byte)
  /-- RESPONSE_TRANSMISSION_START (R176). A Port S response begins transmission on STXD once three character times of idle have passed since the end of the last frame this unit sent. -/
  | responseTransmissionStart
  deriving DecidableEq, Repr

end Sys2Proof
end

