-- ==== Sys2Proof/Decode.lean ====
section
/-!
DEFINITION. Commands spelled by bits. No row of the table of commands gives bits: a command of this block is an event
at its edge or the taking of a message, and the bytes of request frames are an operand of REQUEST_FRAME_COMPLETE.
-/

namespace Sys2Proof

/-- The command a word spells: none, since no row of the table gives bits. -/
def decodeTableWord (_nbits _w : Nat) : Option Instr := none

end Sys2Proof
end

