-- ==== Sys2Proof/Config.lean ====
section
/-!
DEFINITION. What is fixed for the part, and the one value the manual leaves to the implementation.
-/

namespace Sys2Proof.Config

/-- The part code returned by IDENTIFY (R179). -/
def partCode : Word16 := 0x0840

/-- The silicon revision returned by IDENTIFY (R179). -/
def siliconRevision : Byte := 0x01

/-- The check value the Licence Store records with the stored table and compares at the start-up load (R33).
The manual gives no function for it: a constant without a body, of which nothing can be proved (log entry 16). -/
opaque checkValue : LicenceTable → Nat

/-- The largest payload of a frame (R171, R184). -/
def maxPayload : Nat := 60

/-- The report queue holds at most this many records (R119). -/
def reportCapacity : Nat := 48

/-- READ REPORTS and READ CONDITIONS return at most this many records (R120, R162). -/
def recordsPerRead : Nat := 8

/-- CLEAR CONDITIONS lists at most this many slots (R163). -/
def maxClears : Nat := 16

/-- A target lies at most this many epochs ahead (R51). -/
def armWindow : Nat := 4096

/-- An activation is abandoned at the tick that brings its overdue count to this (R61). -/
def deferralTicks : Nat := 32

/-- The blanking count that ends BLANKING (R76). -/
def blankingTicks : Nat := 2

/-- An occurrence count saturates here (R159). -/
def maxOccurrences : Nat := 255

end Sys2Proof.Config
end

