-- ==== Sys2Proof/Machine/State.lean ====
section
/-!
DEFINITION. The state of the DL-840 as plain data, block by block, and the state just after a hardware reset.
Every field is listed in INVENTORY.md under State with the rule that names it.
-/

namespace Sys2Proof.Machine

/-! ## Plan Controller (R1 to R4, R47) -/

/-- Whether the channel relays at all (R1). -/
inductive Service where
  | outOfService | inService
  deriving DecidableEq, Repr

/-- How the commanded gain reaches its target (R1, R80). -/
inductive GainMode where
  | step | ramp
  deriving DecidableEq, Repr

/-- A plan entry as stored (R1). Frequencies in kHz, gains in gain steps, levels in level units. -/
structure PlanEntry where
  service : Service
  rxFreq : Nat
  txFreq : Nat
  gainTarget : Nat
  gainMode : GainMode
  rampRate : Option Nat
  squelchOpen : Int
  squelchClose : Int
  squelchHoldoff : Nat
  squelchSource : Option Chan
  reflLimit : Option Int
  deriving DecidableEq, Repr

/-- The default entry (R2). -/
def PlanEntry.default : PlanEntry where
  service := .outOfService
  rxFreq := 30000
  txFreq := 30025
  gainTarget := 0
  gainMode := .step
  rampRate := none
  squelchOpen := 0
  squelchClose := 0
  squelchHoldoff := 4
  squelchSource := none
  reflLimit := none

/-- A plan table: eight entries, one per channel (R3). -/
abbrev PlanTable := Vector PlanEntry 8

/-- The plan table of default entries (R2, R19). -/
def PlanTable.default : PlanTable := Vector.replicate 8 PlanEntry.default

/-- APPLY_MODE (R17). -/
inductive ApplyMode where
  | wholePlan | perEntry
  deriving DecidableEq, Repr

/-- The pending activation record (R47). oldNotices is the model's own: how many standby notices of earlier departures were
still untaken when the record was armed, so that one sent since tells a record that outlived its departure (log entry 30). -/
structure PendingActivation where
  planNumber : Word16
  target : Word16
  overdue : Option Nat
  oldNotices : Nat
  deriving DecidableEq, Repr

/-- What the Plan Controller owns (R3, R4, R17, R18, R47). -/
structure PlanController where
  staged : PlanTable
  active : PlanTable
  number : Word16
  revision : Word16
  pendingActivation : Option PendingActivation
  applyMode : ApplyMode
  raster : Nat
  deriving DecidableEq, Repr

/-! ## Licence Store (R22, R23, R33) -/

/-- The store states, in the order of their codes (R23, R184). -/
inductive StoreState where
  | blank | programming | protected_ | erasing | incomplete
  deriving DecidableEq, Repr

/-- What the Licence Store owns. The first three fields are the non-volatile memory (R22, R23, R33). -/
structure LicenceStore where
  storeState : StoreState
  stored : LicenceTable
  checkValue : Nat
  working : LicenceTable
  loading : Bool
  deriving DecidableEq, Repr

/-! ## Epoch Timebase (R39, R40) -/

/-- What the Epoch Timebase owns. -/
structure Timebase where
  prescale : Nat
  modulo : Nat
  position : Nat
  counter : Word16
  deriving DecidableEq, Repr

/-! ## Channel Sequencers (R68, R70) -/

/-- The six site-wide sequencer parameters (R70). -/
structure SequencerParams where
  tuneLimit : Nat
  settleEpochs : Nat
  foldbackStep : Nat
  recoverWindows : Nat
  reflLimit : Int
  carrierFloor : Int
  deriving DecidableEq, Repr

/-- The defaults of R70. -/
def SequencerParams.default : SequencerParams where
  tuneLimit := 50
  settleEpochs := 20
  foldbackStep := 20
  recoverWindows := 8
  reflLimit := 16384
  carrierFloor := -32768

/-- A channel's state, in the order of its codes (R68, R184). -/
inductive ChannelState where
  | off | tuning | settling | onAir | squelched | foldback | shutdown
  deriving DecidableEq, Repr

/-- The stage of tuning (R68). -/
inductive SubPhase where
  | writing | blanking | waitingLock
  deriving DecidableEq, Repr

/-- The channel record (R68). -/
structure Channel where
  entry : PlanEntry
  state : ChannelState
  subPhase : Option SubPhase
  tuneCount : Nat
  blankingCount : Nat
  settleCount : Nat
  gain : Nat
  fold : Nat
  belowCount : Nat
  recoverCount : Nat
  freshRx : Bool
  settlingMean : Option Int
  demandedRx : Nat
  demandedTx : Nat
  rxWritten : Bool
  txWritten : Bool
  demandedGain : Nat
  lockRx : Bool
  lockTx : Bool
  deriving DecidableEq, Repr

/-- The channel record at hardware reset (R96), with the lock levels sampled. -/
def Channel.atReset (lockRx lockTx : Bool) : Channel where
  entry := PlanEntry.default
  state := .off
  subPhase := none
  tuneCount := 0
  blankingCount := 0
  settleCount := 0
  gain := 0
  fold := 0
  belowCount := 0
  recoverCount := 0
  freshRx := false
  settlingMean := none
  demandedRx := 0
  demandedTx := 0
  rxWritten := false
  txWritten := false
  demandedGain := 0
  lockRx := lockRx
  lockTx := lockTx

/-! ## Radio Control Link (R98, R99) -/

/-- The device a target names: receive synthesizer, transmit synthesizer or gain stage (R98). -/
inductive Device where
  | rxSyn | txSyn | gain
  deriving DecidableEq, Repr

/-- One of the 24 targets (R98). -/
structure Target where
  channel : Chan
  device : Device
  deriving DecidableEq, Repr

/-- A write record: a target and a value (R99). -/
structure WriteRecord where
  target : Target
  value : Nat
  deriving DecidableEq, Repr

/-- What the link owns: the queue, head first, and the write in flight (R99). -/
structure Link where
  queue : List WriteRecord
  inFlight : Option WriteRecord
  deriving DecidableEq, Repr

/-- The park and zero writes of one channel, in the order of R107. -/
def resetWritesOf (c : Chan) : List WriteRecord :=
  [⟨⟨c, .rxSyn⟩, 0⟩, ⟨⟨c, .txSyn⟩, 0⟩, ⟨⟨c, .gain⟩, 0⟩]

/-- The 24 reset writes in order (R107). -/
def resetWrites : List WriteRecord :=
  (List.finRange 8).flatMap resetWritesOf

/-! ## Level Monitor (R112, R114, R119) -/

/-- The measured quantities, in the order of their tags (R108). -/
inductive Quantity where
  | rx | fwd | refl
  deriving DecidableEq, Repr

/-- An accumulator (R112); min and max are absent while count is 0. -/
structure Accumulator where
  sum : Int
  wraps : Int
  count : Nat
  min : Option Int
  max : Option Int
  deriving DecidableEq, Repr

/-- The empty accumulator (R112). -/
def Accumulator.empty : Accumulator := ⟨0, 0, 0, none, none⟩

/-- A window result (R114). -/
structure WindowResult where
  channel : Chan
  quantity : Quantity
  stamp : Word16
  count : Nat
  mean : Int
  min : Int
  max : Int
  sum : Int
  wraps : Int
  deriving DecidableEq, Repr

/-- The accumulator and the latest result of one (channel, quantity) pair (R112, R115). -/
structure Meter where
  acc : Accumulator
  latest : Option WindowResult
  deriving DecidableEq, Repr

/-- A pair with nothing measured (R117, R125). -/
def Meter.empty : Meter := ⟨Accumulator.empty, none⟩

/-- The three pairs of one channel. -/
structure Meters where
  rx : Meter
  fwd : Meter
  refl : Meter
  deriving DecidableEq, Repr

/-- Three pairs with nothing measured. -/
def Meters.empty : Meters := ⟨Meter.empty, Meter.empty, Meter.empty⟩

/-- SAMPLE_FORMAT (R111). -/
inductive SampleFormat where
  | offsetBinary | twosComplement
  deriving DecidableEq, Repr

/-- A report record (R119). -/
structure ReportRecord where
  channel : Chan
  quantity : Quantity
  loss : Bool
  stamp : Word16
  mean : Int
  spread : Nat
  deriving DecidableEq, Repr

/-- What the Level Monitor owns (chapter 7). reportSelect holds pair (c, q) at bit 3c + q (R181). straddling: the word in
progress on the Sample Port was begun before the end of the last reset (R125). -/
structure LevelMonitor where
  meters : Vector Meters 8
  reports : List ReportRecord
  lossMark : Bool
  windowLength : Nat
  sampleFormat : SampleFormat
  reportSelect : Mask24
  reportThreshold : Nat
  straddling : Bool
  deriving DecidableEq, Repr

/-- The Level Monitor after hardware reset (R125). -/
def LevelMonitor.atReset : LevelMonitor where
  meters := Vector.replicate 8 Meters.empty
  reports := []
  lossMark := false
  windowLength := 64
  sampleFormat := .offsetBinary
  reportSelect := 0
  reportThreshold := 24
  straddling := false

/-! ## Authority Unit (R143) -/

/-- A port's role (R143). -/
inductive Role where
  | idle | holder | reserve
  deriving DecidableEq, Repr

/-- A port record (R143). -/
structure PortRecord where
  role : Role
  count : Nat
  deriving DecidableEq, Repr

/-- The record of a port without a role (R145). -/
def PortRecord.idle : PortRecord := ⟨.idle, 0⟩

/-- What the Authority Unit owns (R143, R155). -/
structure AuthorityUnit where
  a : PortRecord
  b : PortRecord
  s : PortRecord
  limit : Nat
  deriving DecidableEq, Repr

/-! ## Mode Control (R127, R134) -/

/-- The site mode (R127). -/
inductive SiteMode where
  | standby | operate
  deriving DecidableEq, Repr

/-- The last standby cause (R127). -/
inductive StandbyCause where
  | reset
  | request (port : Port)
  | emergency (port : Port)
  | faultLine (line : Line)
  deriving DecidableEq, Repr

/-- What Mode Control owns. The initialize mark is set while some block's report is awaited (R134, log entry 28). -/
structure ModeControl where
  mode : SiteMode
  cause : StandbyCause
  awaited : List InitBlock
  deriving DecidableEq, Repr

/-! ## Fault Line Monitor (R136, R137) -/

/-- POLARITY (R137). -/
inductive Polarity where
  | activeLow | activeHigh
  deriving DecidableEq, Repr

/-- SENSITIVITY (R137). -/
inductive Sensitivity where
  | edge | edgeAndLevel
  deriving DecidableEq, Repr

/-- ACTION (R137). -/
inductive LineAction where
  | report | shutdown | standby
  deriving DecidableEq, Repr

/-- The four configuration fields of a line (R137); channel c is bit c of the channel set (R181). -/
structure LineConfig where
  polarity : Polarity
  sensitivity : Sensitivity
  action : LineAction
  channels : BitVec 8
  deriving DecidableEq, Repr

/-- The defaults of R137. -/
def LineConfig.default : LineConfig := ⟨.activeLow, .edge, .report, 0⟩

/-- A fault line: its configuration, its filtered level and the level at its pin, true for HIGH (R136, R137).
A filter interval is in progress exactly while the two levels differ (log entry 19). -/
structure FaultLine where
  config : LineConfig
  filteredHigh : Bool
  pinHigh : Bool
  deriving DecidableEq, Repr

/-- A line at hardware reset with the level at its pin (R142). -/
def FaultLine.atReset (pinHigh : Bool) : FaultLine := ⟨LineConfig.default, true, pinHigh⟩

/-! ## Condition Table (R158, R159, R166) -/

/-- A set of ports: a slot's seen-by (R159). -/
structure PortSet where
  a : Bool
  b : Bool
  s : Bool
  deriving DecidableEq, Repr

/-- The empty set of ports. -/
def PortSet.none : PortSet := ⟨false, false, false⟩

/-- A slot record (R159). clearPending is used by line slots alone. -/
structure Slot where
  latched : Bool
  occurrences : Nat
  lastEpoch : Option Word16
  seenBy : PortSet
  clearPending : Bool
  deriving DecidableEq, Repr

/-- The clear slot (R159). -/
def Slot.clear : Slot := ⟨false, 0, none, PortSet.none, false⟩

/-- The attention mode of a port (R166). -/
inductive AttentionMode where
  | edge | level
  deriving DecidableEq, Repr

/-- Attention of one port: mask, mode, latch (R166) and the level of its attention line (R167). -/
structure Attention where
  mask : Mask24
  mode : AttentionMode
  latch : Bool
  line : Bool
  deriving DecidableEq, Repr

/-- Attention after hardware reset (R169). -/
def Attention.atReset : Attention := ⟨0, .edge, false, false⟩

/-- What the Condition Table owns. -/
structure ConditionTable where
  slots : Vector Slot 75
  a : Attention
  b : Attention
  s : Attention
  deriving DecidableEq, Repr

/-- The Condition Table after hardware reset (R169). -/
def ConditionTable.atReset : ConditionTable :=
  ⟨Vector.replicate 75 Slot.clear, Attention.atReset, Attention.atReset, Attention.atReset⟩

/-! ## Port Interfaces (R173 to R176, R183) -/

/-- A select period of Port A or B (R173): none open; a WRITE with the frame bytes so far; a READ with the bytes of its
frame that are still to be clocked out; or a period whose remainder is ignored. -/
inductive SelectPeriod where
  | closed
  | write (got : List Byte)
  | read (rest : List Byte)
  | ignored
  deriving DecidableEq, Repr

/-- Port A or B: its select period and its response slot (R173, R174). -/
structure SyncInterface where
  period : SelectPeriod
  slot : Option (List Byte)
  deriving DecidableEq, Repr

/-- The Port S receiver (R175): WAITING_IDLE before and after the idle that makes it ready, and IN_FRAME. -/
inductive ReceiverS where
  | waitingIdle
  | ready
  | inFrame (got : List Byte)
  deriving DecidableEq, Repr

/-- The response in transmission on Port S: its frame, and whether STXD already carries it (R176, log entry 10). -/
structure Transmission where
  frame : List Byte
  started : Bool
  deriving DecidableEq, Repr

/-- Port S: receiver, response in transmission, response waiting (R175, R176). -/
structure AsyncInterface where
  receiver : ReceiverS
  transmitting : Option Transmission
  waiting : Option (List Byte)
  deriving DecidableEq, Repr

/-- The three Port Interfaces and the straps they hold (R171, R175). -/
structure PortInterfaces where
  a : SyncInterface
  b : SyncInterface
  s : AsyncInterface
  unitAddress : BitVec 4
  baud : BitVec 2
  deriving DecidableEq, Repr

/-! ## Messages between blocks -/

/-- The site configuration items and the read-only items (R181). -/
inductive Item where
  | applyMode | raster | keepaliveLimit | tuneLimit | settleEpochs | foldbackStep | recoverWindows | reflLimit
  | carrierFloor | windowLength | sampleFormat | reportSelect | reportThreshold | line | epochPeriod | latestResult
  | attention_
  deriving DecidableEq, Repr

/-- A plan entry record as a STAGE ENTRY carries it, before the entry checks (R6, R184). -/
structure RawEntry where
  service : Nat
  rxFreq : Nat
  txFreq : Nat
  gainTarget : Nat
  gainMode : Nat
  rampRate : Option Nat
  squelchOpen : Int
  squelchClose : Int
  squelchHoldoff : Nat
  squelchSource : Option Nat
  reflLimit : Option Int
  deriving DecidableEq, Repr

/-- A licence entry record as a LICENCE ENTRY carries it, before its checks (R25, R184). -/
structure RawLicence where
  txLow : Nat
  txHigh : Nat
  gainCeiling : Nat
  rxLow : Option Nat
  rxHigh : Option Nat
  deriving DecidableEq, Repr

/-- A request as its Port Interface hands it to its owner (R172, R178), its fields as received. -/
inductive Request where
  | claim | reserve | release | keepalive
  | stageEntry (channel : Nat) (entry : RawEntry)
  | stageClear | stageCopy
  | readEntry (table channel : Nat)
  | armActivation (planNumber : Word16) (kind : Nat) (epoch : Word16)
  | disarm
  | activateNow (planNumber : Word16)
  | restartChannel (channel : Byte)
  | readChannel (channel : Byte)
  | setMode (selector : Nat)
  | siteStandby | initializeSite
  | configure (item : Item) (value : List Byte)
  | readConfig (item : Item) (params : List Byte)
  | setEpoch (prescale modulo : Nat)
  | readConditions (start : Nat)
  | clearConditions (slots : List Byte)
  | setAttention (mask : Mask24) (mode : Nat)
  | acknowledge
  | readReports (n : Nat)
  | flushReports
  | licenceEntry (slot : Nat) (entry : Option RawLicence)
  | licenceCommit | licenceErase
  | readLicence (table slot : Nat)
  deriving DecidableEq, Repr

/-- The owner a request is handed to (R178, R181): a block, or one channel's sequencer. -/
inductive Owner where
  | authority | plan | sequencerBlock
  | sequencer (channel : Chan)
  | mode | timebase | conditions | level | licence | faultLines
  deriving DecidableEq, Repr

/-- The consumers of the epoch tick (R41). -/
inductive TickConsumer where
  | plan | authority
  | sequencer (channel : Chan)
  deriving DecidableEq, Repr

/-- A message one block has sent and another has not yet taken (log entry 2). -/
inductive Message where
  /-- A request handed to its owner; no tag for a broadcast, which is not answered (R172). -/
  | request (owner : Owner) (port : Port) (tag : Option Byte) (body : Request)
  /-- An epoch tick carrying its epoch (R40, R41). -/
  | tick (consumer : TickConsumer) (epoch : Word16)
  /-- An entry change carrying the new entry whole (R5). -/
  | entryChange (channel : Chan) (entry : PlanEntry)
  /-- Site start (R129). -/
  | siteStart (channel : Chan)
  /-- Site stop (R132). -/
  | siteStop (channel : Chan)
  /-- The standby notice (R132). -/
  | standbyNotice
  /-- The write demands of one sequencer event, in order (R71, R100). -/
  | demands (channel : Chan) (writes : List WriteRecord)
  /-- A write completion for the owning sequencer (R102). -/
  | completion (write : WriteRecord)
  /-- A window result delivered to a sequencer (R116). -/
  | result (channel : Chan) (result : WindowResult)
  /-- An OFF notice for the Level Monitor (R89). -/
  | offNotice (channel : Chan)
  /-- A fault shutdown (R139). -/
  | faultShutdown (channel : Chan)
  /-- A fault standby for Mode Control (R139). -/
  | faultStandby (line : Line)
  /-- An occurrence for the Condition Table (R160). -/
  | occurrence (slot : SlotNo)
  /-- A deassertion notice for the Condition Table (R140). -/
  | deassertion (line : Line)
  /-- An initialize notice (R134). -/
  | initNotice (block : InitBlock)
  /-- A block's report that it has taken its initialize notice (R134). -/
  | initReport (block : InitBlock)
  deriving DecidableEq, Repr

/-! ## The whole part -/

/-- Whether the part runs, is held in hardware reset, or has no supply (R32, R107, R135). -/
inductive Phase where
  | running | inReset | unpowered
  deriving DecidableEq, Repr

/-- The state of the part. pending is the queue of commands that wait, first in, first out (log entry 1). -/
structure State where
  pending : List Instr
  phase : Phase
  transit : List Message
  plan : PlanController
  licence : LicenceStore
  timebase : Timebase
  params : SequencerParams
  channels : Vector Channel 8
  link : Link
  level : LevelMonitor
  authority : AuthorityUnit
  mode : ModeControl
  lines : Vector FaultLine 8
  conditions : ConditionTable
  ports : PortInterfaces
  deriving DecidableEq, Repr

/-- No step of the DL-840 ends in a fault: the manual gives every event an effect (INVENTORY.md, Faults).
The type has no constructor, so no meaning can answer one. -/
inductive Fault where
  deriving DecidableEq, Repr

/-- Why a command is refused. -/
inductive Refusal where
  /-- Raised by exec for a command that has no meaning yet; safe, the model only stops. No arm raises it now. -/
  | notModelled (mnemonic : String)
  deriving DecidableEq, Repr

/-- The Plan Controller after hardware reset (R19). -/
def PlanController.atReset : PlanController where
  staged := PlanTable.default
  active := PlanTable.default
  number := 0
  revision := 0
  pendingActivation := none
  applyMode := .wholePlan
  raster := 25

/-- The Epoch Timebase after hardware reset (R46). -/
def Timebase.atReset : Timebase := ⟨1, 1000, 0, 0⟩

/-- The Authority Unit after hardware reset (R156). -/
def AuthorityUnit.atReset : AuthorityUnit := ⟨PortRecord.idle, PortRecord.idle, PortRecord.idle, 30⟩

/-- Mode Control after hardware reset (R135). -/
def ModeControl.atReset : ModeControl := ⟨.standby, .reset, []⟩

/-- The Port Interfaces after hardware reset with the straps held (R183). -/
def PortInterfaces.atReset (unitAddress : BitVec 4) (baud : BitVec 2) : PortInterfaces where
  a := ⟨.closed, none⟩
  b := ⟨.closed, none⟩
  s := ⟨.waitingIdle, none, none⟩
  unitAddress := unitAddress
  baud := baud

/-- An empty licence table (R22). -/
def emptyLicence : LicenceTable := Vector.replicate 16 none

/-- The part as delivered, just after the end of its first hardware reset: the start-up load runs and the first reset
write is in flight (R19, R33, R38, R46, R96, R107, R125, R135, R142, R156, R169, R183). DESIGN CHOICE, log entry 12: a
BLANK store with check value 0; lock lines deasserted, fault pins HIGH, selects deasserted, straps 0. -/
def State.reset : State where
  pending := []
  phase := .running
  transit := []
  plan := PlanController.atReset
  licence := ⟨.blank, emptyLicence, 0, emptyLicence, true⟩
  timebase := Timebase.atReset
  params := SequencerParams.default
  channels := Vector.replicate 8 (Channel.atReset false false)
  link := ⟨resetWrites.tail, resetWrites.head?⟩
  level := LevelMonitor.atReset
  authority := AuthorityUnit.atReset
  mode := ModeControl.atReset
  lines := Vector.replicate 8 (FaultLine.atReset true)
  conditions := ConditionTable.atReset
  ports := PortInterfaces.atReset 0 0

end Sys2Proof.Machine
end

