-- ==== Sys2Proof/Machine/Operands.lean ====
section
/-!
DEFINITION. Bytes and fields: the check byte and the frame (R171, R184), outcome and detail codes (R177 and the
chapters' tables), the request catalogue and the layouts of the records carried in frames (R178, R181, R182, R184).
-/

namespace Sys2Proof.Machine

/-! ## Numbers in bytes, most significant byte first (R184) -/

/-- The number a list of bytes spells. -/
def beNat (bytes : List Byte) : Nat := bytes.foldl (fun n b => 256 * n + b.toNat) 0

/-- The low k bytes of a number. -/
def natBytes : Nat → Nat → List Byte
  | 0, _ => []
  | k + 1, n => BitVec.ofNat 8 (n >>> (8 * k)) :: natBytes k n

/-- The number in len bytes of a record from byte start on. -/
def fieldAt (bytes : List Byte) (start len : Nat) : Nat := beNat ((bytes.drop start).take len)

/-- Bit k of byte start of a record. -/
def bitAt (bytes : List Byte) (start k : Nat) : Bool := (fieldAt bytes start 1).testBit k

/-- A level read from its two's complement word (R184). -/
def levelOfNat (n : Nat) : Int := (BitVec.ofNat 16 n).toInt

/-- A level in two bytes, two's complement (R184). -/
def levelBytes (l : Int) : List Byte := natBytes 2 (BitVec.ofInt 16 l).toNat

/-- A Bool as a byte. -/
def boolByte (b : Bool) : Byte := if b then 1 else 0

/-- Bits of a flag byte, from bit 0 up. -/
def flagByte : List Bool → Nat
  | [] => 0
  | b :: bs => (if b then 1 else 0) + 2 * flagByte bs

/-! ## Check byte and frame (R171, R184) -/

/-- One bit of the CRC-8 with polynomial x^8 + x^2 + x + 1 (R171). -/
def crcShift (c : Byte) : Byte := if c.msb then (c <<< 1) ^^^ 0x07 else c <<< 1

/-- One byte of the CRC-8. -/
def crcByte (c b : Byte) : Byte :=
  crcShift (crcShift (crcShift (crcShift (crcShift (crcShift (crcShift (crcShift (c ^^^ b))))))))

/-- The CRC-8 of a list of bytes: initial value 0, no reflection, no final inversion (R171). -/
def crc8 (bytes : List Byte) : Byte := bytes.foldl crcByte 0

/-- A frame from its header, tag, code and payload, with its length and check bytes (R184). -/
def buildFrame (header tag code : Byte) (payload : List Byte) : List Byte :=
  let body := header :: tag :: code :: BitVec.ofNat 8 payload.length :: payload
  body ++ [crc8 body]

/-- The header of a request to a unit address: kind bit clear (R184). -/
def requestHeader (address : BitVec 4) : Byte := address.setWidth 8 <<< 4

/-- The header of a response of this unit: kind bit set (R172, R184). -/
def responseHeader (address : BitVec 4) : Byte := requestHeader address ||| 0x08

/-- Whether a list of bytes is one whole frame: the check byte stands at position 4 + L, and L is at most 60. -/
def wholeFrame (frame : List Byte) : Bool :=
  decide (fieldAt frame 3 1 ≤ Config.maxPayload) && decide (frame.length = 5 + fieldAt frame 3 1)

/-! ## Outcomes (R177) -/

/-- The refusals (R177). -/
inductive RefusalKind where
  | role | held | mode | state | range | plan | licence | notReady | faultPresent | busy
  deriving DecidableEq, Repr

/-- The outcome code of a refusal (R177). -/
def RefusalKind.code : RefusalKind → Byte
  | .role => 0x10 | .held => 0x11 | .mode => 0x12 | .state => 0x13 | .range => 0x14
  | .plan => 0x15 | .licence => 0x16 | .notReady => 0x17 | .faultPresent => 0x18 | .busy => 0x19

/-- The detail names (R8, R24, R43, chapter 4.3, R88, R115, R128, chapter 9.3, R166, R177). -/
inductive Detail where
  | none_
  | service | rxFreq | txFreq | gainTarget | gainMode | rampRate | squelchOpen | squelchHoldoff | squelchSource
  | channel | table | planNumber | target
  | txClash | rxTxClash | sourceInvalid | offRaster
  | activationPending | applyMode | storeNotBlank | workingEmpty | nothingPending | notShutdown | measurementActive
  | noHolder | sequencerBusy | alreadyHolder
  | slot | txLow | txHigh | ceiling | rxWindow | rxLow | rxHigh
  | storeInFlight | startUpLoad | initializing
  | noWindow | gainCeiling
  | prescale | modulo
  | lineShutdown | lineStandby
  | reportCount | quantity | readOnly
  | mode | storeNotProtected | line | lineField
  | holderPresent | reservePresent | reserveNotPermitted | noRole | keepaliveLimit
  | conditionSlot | clearCount | attentionMask | attentionMode
  | item | value
  deriving DecidableEq, Repr

/-- The detail codes. -/
def Detail.code : Detail → Byte
  | .none_ => 0xFF
  | .service => 0x01 | .rxFreq => 0x02 | .txFreq => 0x03 | .gainTarget => 0x04 | .gainMode => 0x05
  | .rampRate => 0x06 | .squelchOpen => 0x07 | .squelchHoldoff => 0x08 | .squelchSource => 0x09
  | .channel => 0x0A | .table => 0x0B | .planNumber => 0x0C | .target => 0x0D
  | .txClash => 0x21 | .rxTxClash => 0x22 | .sourceInvalid => 0x23 | .offRaster => 0x24
  | .activationPending => 0x30 | .applyMode => 0x31 | .storeNotBlank => 0x32 | .workingEmpty => 0x33
  | .nothingPending => 0x34 | .notShutdown => 0x35 | .measurementActive => 0x36 | .noHolder => 0x37
  | .sequencerBusy => 0x38 | .alreadyHolder => 0x39
  | .slot => 0x41 | .txLow => 0x42 | .txHigh => 0x43 | .ceiling => 0x44 | .rxWindow => 0x45 | .rxLow => 0x46
  | .rxHigh => 0x47
  | .storeInFlight => 0x50 | .startUpLoad => 0x51 | .initializing => 0x52
  | .noWindow => 0x60 | .gainCeiling => 0x61
  | .prescale => 0x70 | .modulo => 0x71
  | .lineShutdown => 0x80 | .lineStandby => 0x81
  | .reportCount => 0x90 | .quantity => 0x91 | .readOnly => 0x92
  | .mode => 0xA0 | .storeNotProtected => 0xA1 | .line => 0xA2 | .lineField => 0xA3
  | .holderPresent => 0xB0 | .reservePresent => 0xB1 | .reserveNotPermitted => 0xB2 | .noRole => 0xB3
  | .keepaliveLimit => 0xB4
  | .conditionSlot => 0xC0 | .clearCount => 0xC1 | .attentionMask => 0xC2 | .attentionMode => 0xC3
  | .item => 0xD0 | .value => 0xD1

/-- The outcome of a request (R177). -/
inductive Reply where
  | done (payload : List Byte)
  | accepted
  | refused (kind : RefusalKind) (detail : Detail) (number : Byte)
  | unknownRequest
  | malformed
  deriving DecidableEq, Repr

/-- The number 255 of a refusal payload: none (R177). -/
def noNumber : Byte := 0xFF

/-- The outcome code of a reply (R177). -/
def Reply.code : Reply → Byte
  | .done _ => 0x00
  | .accepted => 0x01
  | .refused k _ _ => k.code
  | .unknownRequest => 0x1E
  | .malformed => 0x1F

/-- The payload of a reply (R177). -/
def Reply.payload : Reply → List Byte
  | .done p => p
  | .refused _ d n => [d.code, n]
  | .accepted | .unknownRequest | .malformed => []

/-- The response frame of a unit for a tag and a reply (R172). -/
def responseFrame (address : BitVec 4) (tag : Byte) (r : Reply) : List Byte :=
  buildFrame (responseHeader address) tag r.code r.payload

/-- The EMPTY_SLOT frame: tag 0, outcome 0x02, no payload (R173). -/
def emptySlotFrame (address : BitVec 4) : List Byte := buildFrame (responseHeader address) 0 0x02 []

/-- A holder-only request from a port that is not HOLDER (R153). -/
def Reply.notHolder : Reply := .refused .role .none_ noNumber

/-- A request refused for the site mode (R182). -/
def Reply.wrongMode : Reply := .refused .mode .none_ noNumber

/-- A value out of range where the owner's chapter names no detail (R182). -/
def Reply.badValue : Reply := .refused .range .value noNumber

/-! ## Codes of enumerations (R184): the position in the list of the owner's chapter -/

/-- The code of a port (R179). -/
def portCode : Port → Byte
  | .a => 0 | .b => 1 | .s => 2

/-- A port code, 255 for none (R180). -/
def portCodeOr : Option Port → Byte
  | some p => portCode p
  | none => noNumber

/-- The code of a role: its place in R143's list (log entry 20). -/
def Role.code : Role → Byte
  | .idle => 0 | .holder => 1 | .reserve => 2

/-- The code of a site mode (R178). -/
def SiteMode.code : SiteMode → Byte
  | .standby => 0 | .operate => 1

/-- The code of a store state (R184). -/
def StoreState.code : StoreState → Byte
  | .blank => 0 | .programming => 1 | .protected_ => 2 | .erasing => 3 | .incomplete => 4

/-- The two bytes of the last standby cause (R180). -/
def StandbyCause.bytes : StandbyCause → List Byte
  | .reset => [0, noNumber]
  | .request p => [1, portCode p]
  | .emergency p => [2, portCode p]
  | .faultLine n => [3, BitVec.ofNat 8 n.val]

def Service.code : Service → Byte
  | .outOfService => 0 | .inService => 1

def GainMode.code : GainMode → Byte
  | .step => 0 | .ramp => 1

def ApplyMode.code : ApplyMode → Byte
  | .wholePlan => 0 | .perEntry => 1

def SampleFormat.code : SampleFormat → Byte
  | .offsetBinary => 0 | .twosComplement => 1

def Polarity.code : Polarity → Byte
  | .activeLow => 0 | .activeHigh => 1

def Sensitivity.code : Sensitivity → Byte
  | .edge => 0 | .edgeAndLevel => 1

def LineAction.code : LineAction → Byte
  | .report => 0 | .shutdown => 1 | .standby => 2

def AttentionMode.code : AttentionMode → Byte
  | .edge => 0 | .level => 1

/-- The code of a channel state in the channel record (R184). -/
def ChannelState.code : ChannelState → Byte
  | .off => 0 | .tuning => 1 | .settling => 2 | .onAir => 3 | .squelched => 4 | .foldback => 5 | .shutdown => 6

/-- The code of a sub-phase, 255 for none (R184). -/
def subPhaseCode : Option SubPhase → Byte
  | some .writing => 0 | some .blanking => 1 | some .waitingLock => 2 | none => noNumber

/-- The number of a quantity: its tag (R108) and its place in REPORT_SELECT (R181). -/
def Quantity.number : Quantity → Nat
  | .rx => 0 | .fwd => 1 | .refl => 2

/-- The quantity a tag names (R108). -/
def quantityOf : Nat → Option Quantity
  | 0 => some .rx
  | 1 => some .fwd
  | 2 => some .refl
  | _ => none

/-- The channel a number names. -/
def chanOf (n : Nat) : Option Chan := if h : n < 8 then some ⟨n, h⟩ else none

/-- The condition slot a number names. -/
def slotOf (n : Nat) : Option SlotNo := if h : n < 75 then some ⟨n, h⟩ else none

/-! ## Records in frames (R184) -/

/-- The fields of a plan entry record of 20 bytes; the bytes of an absent field are ignored. -/
def parseEntry (r : List Byte) : RawEntry where
  service := fieldAt r 0 1
  rxFreq := fieldAt r 1 3
  txFreq := fieldAt r 4 3
  gainTarget := fieldAt r 7 2
  gainMode := fieldAt r 9 1
  rampRate := if bitAt r 10 0 then some (fieldAt r 11 1) else none
  squelchOpen := levelOfNat (fieldAt r 12 2)
  squelchClose := levelOfNat (fieldAt r 14 2)
  squelchHoldoff := fieldAt r 16 1
  squelchSource := if bitAt r 10 1 then some (fieldAt r 17 1) else none
  reflLimit := if bitAt r 10 2 then some (levelOfNat (fieldAt r 18 2)) else none

/-- The plan entry record of a stored entry; an absent field is sent as zero. -/
def encodeEntry (e : PlanEntry) : List Byte :=
  [e.service.code] ++ natBytes 3 e.rxFreq ++ natBytes 3 e.txFreq ++ natBytes 2 e.gainTarget ++ [e.gainMode.code]
    ++ [BitVec.ofNat 8 (flagByte [e.rampRate.isSome, e.squelchSource.isSome, e.reflLimit.isSome])]
    ++ natBytes 1 (e.rampRate.getD 0) ++ levelBytes e.squelchOpen ++ levelBytes e.squelchClose
    ++ natBytes 1 e.squelchHoldoff ++ natBytes 1 ((e.squelchSource.map Fin.val).getD 0)
    ++ levelBytes (e.reflLimit.getD 0)

/-- The fields of a licence entry record of 15 bytes; none where it marks the slot empty. -/
def parseLicence (r : List Byte) : Option RawLicence :=
  if bitAt r 0 0 then
    some
      { txLow := fieldAt r 1 3
        txHigh := fieldAt r 4 3
        gainCeiling := fieldAt r 7 2
        rxLow := if bitAt r 0 1 then some (fieldAt r 9 3) else none
        rxHigh := if bitAt r 0 2 then some (fieldAt r 12 3) else none }
  else none

/-- The licence entry record of a slot. -/
def encodeLicence : Option LicenceEntry → List Byte
  | none => natBytes 15 0
  | some e =>
    [BitVec.ofNat 8 (flagByte [true, e.input.isSome, e.input.isSome])] ++ natBytes 3 e.txLow ++ natBytes 3 e.txHigh
      ++ natBytes 2 e.gainCeiling ++ natBytes 3 ((e.input.map InputWindow.low).getD 0)
      ++ natBytes 3 ((e.input.map InputWindow.high).getD 0)

/-- The report record of seven bytes. Bits 3 and 2 of byte 0, to which the layout gives no field, are sent as 0 (DEDUCED,
log entry 20). -/
def encodeReport (r : ReportRecord) : List Byte :=
  [BitVec.ofNat 8 ((if r.loss then 128 else 0) + 16 * r.channel.val + r.quantity.number)]
    ++ natBytes 2 r.stamp.toNat ++ levelBytes r.mean ++ natBytes 2 r.spread

/-- The condition slot record of five bytes. Bits 7 to 4 of byte 4 have no field and are sent as 0 (DEDUCED, log entry
20). -/
def encodeSlot (i : SlotNo) (t : Slot) : List Byte :=
  natBytes 1 i.val ++ natBytes 1 t.occurrences ++ natBytes 2 ((t.lastEpoch.map BitVec.toNat).getD 0)
    ++ [BitVec.ofNat 8 (flagByte [t.clearPending, t.seenBy.a, t.seenBy.b, t.seenBy.s])]

/-- The channel record of 24 bytes, with the level of the channel's gate (R95). Bit 7 of byte 9 has no field and is sent
as 0 (DEDUCED, log entry 20). -/
def encodeChannel (c : Chan) (r : Channel) (gateOpen : Bool) : List Byte :=
  natBytes 1 c.val ++ [r.entry.service.code, r.state.code, subPhaseCode r.subPhase]
    ++ natBytes 1 r.tuneCount ++ natBytes 1 r.blankingCount ++ natBytes 1 r.settleCount
    ++ natBytes 1 r.belowCount ++ natBytes 1 r.recoverCount
    ++ [BitVec.ofNat 8
        (flagByte [r.freshRx, r.settlingMean.isSome, r.rxWritten, r.txWritten, r.lockRx, r.lockTx, gateOpen])]
    ++ levelBytes (r.settlingMean.getD 0) ++ natBytes 2 r.gain ++ natBytes 2 r.fold ++ natBytes 2 r.demandedGain
    ++ natBytes 3 r.demandedRx ++ natBytes 3 r.demandedTx

/-- The latest result as READ CONFIG of LATEST_RESULT returns it: presence, then the result when present (R182). The
presence byte is 1 or 0, sum and wraps are sent in two's complement like levels (DEDUCED, log entry 20). -/
def encodeLatest : Option WindowResult → List Byte
  | none => [0]
  | some r =>
    [1] ++ natBytes 2 r.stamp.toNat ++ natBytes 2 r.count ++ levelBytes r.mean ++ levelBytes r.min ++ levelBytes r.max
      ++ natBytes 3 (BitVec.ofInt 24 r.sum).toNat ++ natBytes 1 (BitVec.ofInt 8 r.wraps).toNat

/-- The four configuration fields of a line in the value bytes of LINE, after its number (R181). -/
def encodeLineConfig (k : LineConfig) : List Byte :=
  [k.polarity.code, k.sensitivity.code, k.action.code, k.channels]

/-! ## The request catalogue (R178) and the configuration items (R181) -/

/-- The item of a code (R181). -/
def Item.ofCode : Nat → Option Item
  | 0x01 => some .applyMode
  | 0x02 => some .raster
  | 0x03 => some .keepaliveLimit
  | 0x04 => some .tuneLimit
  | 0x05 => some .settleEpochs
  | 0x06 => some .foldbackStep
  | 0x07 => some .recoverWindows
  | 0x08 => some .reflLimit
  | 0x09 => some .carrierFloor
  | 0x0A => some .windowLength
  | 0x0B => some .sampleFormat
  | 0x0C => some .reportSelect
  | 0x0D => some .reportThreshold
  | 0x0E => some .line
  | 0x10 => some .epochPeriod
  | 0x11 => some .latestResult
  | 0x12 => some .attention_
  | _ => none

/-- The code of an item (R181). -/
def Item.code : Item → Byte
  | .applyMode => 0x01 | .raster => 0x02 | .keepaliveLimit => 0x03 | .tuneLimit => 0x04 | .settleEpochs => 0x05
  | .foldbackStep => 0x06 | .recoverWindows => 0x07 | .reflLimit => 0x08 | .carrierFloor => 0x09
  | .windowLength => 0x0A | .sampleFormat => 0x0B | .reportSelect => 0x0C | .reportThreshold => 0x0D | .line => 0x0E
  | .epochPeriod => 0x10 | .latestResult => 0x11 | .attention_ => 0x12

/-- The owner of an item (R181). -/
def Item.owner : Item → Owner
  | .applyMode | .raster => .plan
  | .keepaliveLimit => .authority
  | .tuneLimit | .settleEpochs | .foldbackStep | .recoverWindows | .reflLimit | .carrierFloor => .sequencerBlock
  | .windowLength | .sampleFormat | .reportSelect | .reportThreshold | .latestResult => .level
  | .line => .faultLines
  | .epochPeriod => .timebase
  | .attention_ => .conditions

/-- Whether an item is read-only (R181). -/
def Item.readOnly : Item → Bool
  | .epochPeriod | .latestResult | .attention_ => true
  | _ => false

/-- The value bytes of an item under CONFIGURE (R181). -/
def Item.valueBytes : Item → Nat
  | .raster | .reflLimit | .carrierFloor | .windowLength => 2
  | .reportSelect => 3
  | .line => 5
  | .epochPeriod | .latestResult | .attention_ => 0
  | .applyMode | .keepaliveLimit | .tuneLimit | .settleEpochs | .foldbackStep | .recoverWindows | .sampleFormat
  | .reportThreshold => 1

/-- The parameter bytes of an item under READ CONFIG (R182). -/
def Item.paramBytes : Item → Nat
  | .line => 1
  | .latestResult => 2
  | _ => 0

/-- What a Port Interface makes of a request code and payload (R172 steps 3 to 5, R182). -/
inductive Parsed where
  | unknown
  | malformed
  | badItem
  | identify
  | readStatus
  | request (owner : Owner) (body : Request)
  deriving DecidableEq, Repr

/-- Step 4 of R172: a payload of the wrong size is malformed. -/
def sized (payload : List Byte) (n : Nat) (p : Parsed) : Parsed := if payload.length = n then p else .malformed

/-- The owner of a request that names a channel: its sequencer, or the Channel Sequencer block (R88, R95). -/
def channelOwner (channel : Byte) : Owner :=
  match chanOf channel.toNat with
  | some c => .sequencer c
  | none => .sequencerBlock

/-- The first byte of a payload, 0 where there is none. -/
def firstByte (payload : List Byte) : Byte := payload.headD 0

/-- R182 for CONFIGURE. -/
def parseConfigure : List Byte → Parsed
  | [] => .badItem
  | code :: value =>
    match Item.ofCode code.toNat with
    | none => .badItem
    | some i =>
      if i.readOnly || decide (value.length = i.valueBytes) then .request i.owner (.configure i value) else .malformed

/-- R182 for READ CONFIG. -/
def parseReadConfig : List Byte → Parsed
  | [] => .badItem
  | code :: params =>
    match Item.ofCode code.toNat with
    | none => .badItem
    | some i => if params.length = i.paramBytes then .request i.owner (.readConfig i params) else .malformed

/-- The request catalogue (R178): the owner and the fields of a request, by its code and payload. -/
def parseRequest (code : Byte) (p : List Byte) : Parsed :=
  match code.toNat with
  | 0x01 => sized p 0 .identify
  | 0x02 => sized p 0 .readStatus
  | 0x10 => sized p 0 (.request .authority .claim)
  | 0x11 => sized p 0 (.request .authority .reserve)
  | 0x12 => sized p 0 (.request .authority .release)
  | 0x13 => sized p 0 (.request .authority .keepalive)
  | 0x20 => sized p 21 (.request .plan (.stageEntry (fieldAt p 0 1) (parseEntry (p.drop 1))))
  | 0x21 => sized p 0 (.request .plan .stageClear)
  | 0x22 => sized p 0 (.request .plan .stageCopy)
  | 0x23 => sized p 2 (.request .plan (.readEntry (fieldAt p 0 1) (fieldAt p 1 1)))
  | 0x24 => sized p 5 (.request .plan
      (.armActivation (BitVec.ofNat 16 (fieldAt p 0 2)) (fieldAt p 2 1) (BitVec.ofNat 16 (fieldAt p 3 2))))
  | 0x25 => sized p 0 (.request .plan .disarm)
  | 0x26 => sized p 2 (.request .plan (.activateNow (BitVec.ofNat 16 (fieldAt p 0 2))))
  | 0x27 => sized p 1 (.request (channelOwner (firstByte p)) (.restartChannel (firstByte p)))
  | 0x28 => sized p 1 (.request (channelOwner (firstByte p)) (.readChannel (firstByte p)))
  | 0x30 => sized p 1 (.request .mode (.setMode (fieldAt p 0 1)))
  | 0x31 => sized p 0 (.request .mode .siteStandby)
  | 0x32 => sized p 0 (.request .mode .initializeSite)
  | 0x33 => parseConfigure p
  | 0x34 => parseReadConfig p
  | 0x35 => sized p 3 (.request .timebase (.setEpoch (fieldAt p 0 1) (fieldAt p 1 2)))
  | 0x40 => sized p 1 (.request .conditions (.readConditions (fieldAt p 0 1)))
  | 0x41 => .request .conditions (.clearConditions p)
  | 0x42 => sized p 4 (.request .conditions (.setAttention (BitVec.ofNat 24 (fieldAt p 0 3)) (fieldAt p 3 1)))
  | 0x43 => sized p 0 (.request .conditions .acknowledge)
  | 0x50 => sized p 1 (.request .level (.readReports (fieldAt p 0 1)))
  | 0x51 => sized p 0 (.request .level .flushReports)
  | 0x60 => sized p 16 (.request .licence (.licenceEntry (fieldAt p 0 1) (parseLicence (p.drop 1))))
  | 0x61 => sized p 0 (.request .licence .licenceCommit)
  | 0x62 => sized p 0 (.request .licence .licenceErase)
  | 0x63 => sized p 2 (.request .licence (.readLicence (fieldAt p 0 1) (fieldAt p 1 1)))
  | _ => .unknown

end Sys2Proof.Machine
end

