-- ==== Sys2Proof/Machine/Flags.lean ====
section
/-!
DEFINITION. What is computed from the state: carrier gates (R73), activation readiness (R48), whether a line is
asserted (R137), the numbering of condition slots and kinds (R158), the attention lines (R167), and the link's wires
(R103).
-/

namespace Sys2Proof.Machine

/-- A table with one place replaced. -/
def put {α : Type} {n : Nat} (v : Vector α n) (i : Fin n) (x : α) : Vector α n := v.set i.val x i.isLt

/-- The lowest-numbered channel that meets a test. -/
def lowestChan (test : Chan → Bool) : Option Chan := (List.finRange 8).find? test

/-! ## Gates, readiness, lines -/

/-- Whether a channel in this state asks for its carrier (R73). -/
def ChannelState.carrier : ChannelState → Bool
  | .onAir | .foldback => true
  | .off | .tuning | .settling | .squelched | .shutdown => false

/-- Whether a channel in this state holds back an activation (R48). -/
def ChannelState.retuning : ChannelState → Bool
  | .tuning | .settling => true
  | .off | .onAir | .squelched | .foldback | .shutdown => false

/-- The OPERATE level Mode Control drives: it is deasserted from the start of a reset (R127, R135). -/
def State.operateLevel (s : State) : Bool := decide (s.phase = .running) && decide (s.mode.mode = .operate)

/-- The level of GATEn: both terms of R73. -/
def State.gate (s : State) (c : Chan) : Bool := s.operateLevel && (s.channels.get c).state.carrier

/-- Whether some channel asks for its carrier: its gate would open with the OPERATE level (R73, R129). -/
def State.carrierAsked (s : State) : Bool := (List.finRange 8).any fun c => (s.channels.get c).state.carrier

/-- Activation readiness (R48, R49). -/
def State.ready (s : State) : Bool := (List.finRange 8).all fun c => !(s.channels.get c).state.retuning

/-- Whether a filtered level asserts a line of this polarity (R137). -/
def Polarity.asserts : Polarity → Bool → Bool
  | .activeLow, high => !high
  | .activeHigh, high => high

/-- Whether a line is asserted, by its filtered level and POLARITY (R137). -/
def FaultLine.asserted (l : FaultLine) : Bool := l.config.polarity.asserts l.filteredHigh

/-- Whether a filter interval of the line is in progress (R136, log entry 19). -/
def FaultLine.filtering (l : FaultLine) : Bool := l.pinHigh != l.filteredHigh

/-! ## Condition slots and kinds (R158) -/

/-- The condition kinds of the site (kinds 0 to 10). -/
inductive SiteKind where
  | authorityLapsed | authorityHandover | reserveLapsed | activationDone | activationAbandoned | standbyEntered
  | reportsWaiting | reportOverflow | sampleTagError | licenceDone | licenceFailed
  deriving DecidableEq, Repr

/-- The condition kinds of a channel (kinds 11 to 17). -/
inductive ChannelKind where
  | lockTimeout | lockLost | squelchClosed | foldbackEntered | reflShutdown | faultShutdown | noCarrier
  deriving DecidableEq, Repr

/-- The slot of a site kind (R158). -/
def SiteKind.slot : SiteKind → SlotNo
  | .authorityLapsed => 0 | .authorityHandover => 1 | .reserveLapsed => 2 | .activationDone => 3
  | .activationAbandoned => 4 | .standbyEntered => 5 | .reportsWaiting => 6 | .reportOverflow => 7
  | .sampleTagError => 8 | .licenceDone => 9 | .licenceFailed => 10

/-- The place of a channel kind among the seven of its channel (R158). -/
def ChannelKind.place : ChannelKind → Fin 7
  | .lockTimeout => 0 | .lockLost => 1 | .squelchClosed => 2 | .foldbackEntered => 3 | .reflShutdown => 4
  | .faultShutdown => 5 | .noCarrier => 6

/-- The slot of a channel kind for a channel: 11 + 7c + place (R158). -/
def ChannelKind.slot (k : ChannelKind) (c : Chan) : SlotNo :=
  ⟨11 + 7 * c.val + k.place.val, by have := c.isLt; have := k.place.isLt; omega⟩

/-- The LINE_ASSERTED slot of line FLn: 67 + n (R158). -/
def lineSlot (n : Line) : SlotNo := ⟨67 + n.val, by have := n.isLt; omega⟩

/-- The line of a line slot (R158). -/
def lineOfSlot (i : SlotNo) : Option Line := if 67 ≤ i.val then chanOf (i.val - 67) else none

/-- The kind number of a slot (R158). -/
def kindOf (i : SlotNo) : Nat :=
  if i.val < 11 then i.val else if i.val < 67 then 11 + (i.val - 11) % 7 else 18

/-! ## Attention (R160, R166, R167) -/

/-- Whether a port is in a set of ports. -/
def PortSet.has (m : PortSet) : Port → Bool
  | .a => m.a | .b => m.b | .s => m.s

/-- A set of ports with a port added. -/
def PortSet.add (m : PortSet) : Port → PortSet
  | .a => { m with a := true } | .b => { m with b := true } | .s => { m with s := true }

/-- The attention of a port. -/
def ConditionTable.attention (t : ConditionTable) : Port → Attention
  | .a => t.a | .b => t.b | .s => t.s

/-- The table with the attention of a port replaced. -/
def ConditionTable.setAttention (t : ConditionTable) (p : Port) (x : Attention) : ConditionTable :=
  match p with
  | .a => { t with a := x } | .b => { t with b := x } | .s => { t with s := x }

/-- Whether a latched slot of a kind in a mask lacks a port in its seen-by set (R167). -/
def unreadSlot (slots : Vector Slot 75) (mask : Mask24) (p : Port) : Bool :=
  (List.finRange 75).any fun i =>
    (slots.get i).latched && mask.getLsbD (kindOf i) && !(slots.get i).seenBy.has p

/-- The level of a port's attention line by the port's mode (R167). -/
def lineLevel (slots : Vector Slot 75) (p : Port) (x : Attention) : Bool :=
  match x.mode with
  | .edge => x.latch
  | .level => x.latch || unreadSlot slots x.mask p

/-- The three attention lines formed anew (R167). -/
def ConditionTable.formLines (t : ConditionTable) : ConditionTable :=
  { t with
    a := { t.a with line := lineLevel t.slots .a t.a }
    b := { t.b with line := lineLevel t.slots .b t.b }
    s := { t.s with line := lineLevel t.slots .s t.s } }

/-! ## The link's wires (R103) -/

/-- The 24 bits shifted out for a value, most significant bit first (R103). -/
def wireBits (value : Nat) : List Bool := (List.range 24).map fun i => value.testBit (23 - i)

/-- The link lines through one period of RCCK (R103): which select line of the 24 is asserted, whether RCCK makes its
period or rests low, and the level of RCD. -/
structure LinkPeriod where
  select : Option Target
  clocked : Bool
  data : Bool
  deriving DecidableEq, Repr

/-- The lines at rest: every select line deasserted, RCCK and RCD low (R103). -/
def LinkPeriod.rest : LinkPeriod := ⟨none, false, false⟩

/-- The periods of RCCK in one transaction: 40 us at 2 MHz (R103). -/
def transactionPeriods : Nat := 80

/-- One write on the link lines, period by period: the target's select line is asserted while the 24 bits are shifted
out, then it is deasserted and RCCK and RCD rest low (R103). -/
def WriteRecord.transaction (w : WriteRecord) : List LinkPeriod :=
  ((wireBits w.value).map fun b => ⟨some w.target, true, b⟩) ++ List.replicate (transactionPeriods - 24) .rest

/-- The link lines in period k of RCCK since the write in flight started; at rest between transactions and during a
hardware reset, when no write is in flight (R103, R107). How far a write has come is not held: log entry 25. -/
def Link.lines (l : Link) (k : Nat) : LinkPeriod :=
  match l.inFlight with
  | some w => w.transaction.getD k .rest
  | none => .rest

end Sys2Proof.Machine
end

