-- ==== Sys2Proof/Machine/Ops.lean ====
section
/-!
DEFINITION. The operations the blocks share: messages between blocks (log entry 2), responses (R172, R174, R176),
the consultation of the Authority Unit (R153), occurrences (R160) and the timebase's end of an epoch (R40).
The part has no exception entry: a refusal is a response and a fault of the site is a condition (INVENTORY.md, Faults).
-/

namespace Sys2Proof.Machine

/-! ## Messages in transit -/

/-- The first message that meets a test, and the others in their order. -/
def pull (key : Message → Bool) : List Message → Option (Message × List Message)
  | [] => none
  | m :: ms => if key m then some (m, ms) else (pull key ms).map fun x => (x.1, m :: x.2)

/-- A request of port p to owner o: an owner takes the requests of one port in order (R172). -/
def Message.isRequest (o : Owner) (p : Port) : Message → Bool
  | .request o' p' _ _ => decide (o' = o) && decide (p' = p)
  | _ => false

/-- A tick for a consumer: each takes every tick once, in order (R41). -/
def Message.isTick (k : TickConsumer) : Message → Bool
  | .tick k' _ => decide (k' = k)
  | _ => false

/-- An entry change for a channel: taken in the order sent (R5). -/
def Message.isEntryChange (c : Chan) : Message → Bool
  | .entryChange c' _ => decide (c' = c)
  | _ => false

/-- A site start or site stop for a channel: taken in the order they arrive (R90). -/
def Message.isSiteNotice (c : Chan) : Message → Bool
  | .siteStart c' => decide (c' = c)
  | .siteStop c' => decide (c' = c)
  | _ => false

/-- What a channel takes before or as its next site start: earlier site notices and earlier entry changes (R90). -/
def Message.beforeSiteStart (c : Chan) (m : Message) : Bool := m.isSiteNotice c || m.isEntryChange c

/-- The standby notice (R132). -/
def Message.isStandbyNotice : Message → Bool
  | .standbyNotice => true
  | _ => false

/-- How many standby notices the Plan Controller has not taken yet. -/
def State.standbyNotices (s : State) : Nat := s.transit.count .standbyNotice

/-- The write demands of one sequencer event: they reach the link in the order of the events that made them (R90, R100,
log entry 2). -/
def Message.isDemands : Message → Bool
  | .demands _ _ => true
  | _ => false

/-- A write completion for a channel's sequencer, in the order the writes ended (R102). -/
def Message.isCompletion (c : Chan) : Message → Bool
  | .completion w => decide (w.target.channel = c)
  | _ => false

/-- A window result delivered to a channel's sequencer, in the order of the completions (R116). -/
def Message.isResult (c : Chan) : Message → Bool
  | .result c' _ => decide (c' = c)
  | _ => false

/-- A channel's OFF notice (R89). -/
def Message.isOffNotice (c : Chan) : Message → Bool
  | .offNotice c' => decide (c' = c)
  | _ => false

/-- A fault shutdown of a channel (R139). -/
def Message.isFaultShutdown (c : Chan) : Message → Bool
  | .faultShutdown c' => decide (c' = c)
  | _ => false

/-- A fault standby of a line (R139, log entry 24). -/
def Message.isFaultStandby (n : Line) : Message → Bool
  | .faultStandby n' => decide (n' = n)
  | _ => false

/-- What the Condition Table is told about a slot: its occurrences, and for a line slot its line's deassertion notices;
for one line they are taken in the order sent (R161). -/
def Message.concernsSlot (i : SlotNo) : Message → Bool
  | .occurrence j => decide (j = i)
  | .deassertion n => decide (lineSlot n = i)
  | _ => false

/-- A block's initialize notice (R134). -/
def Message.isInitNotice (b : InitBlock) : Message → Bool
  | .initNotice b' => decide (b' = b)
  | _ => false

/-- A block's report that it took its initialize notice (R134). -/
def Message.isInitReport (b : InitBlock) : Message → Bool
  | .initReport b' => decide (b' = b)
  | _ => false

/-- The first message in transit that meets a test, and the state with it taken. -/
def State.take (key : Message → Bool) (s : State) : Option (Message × State) :=
  (pull key s.transit).map fun x => (x.1, { s with transit := x.2 })

/-- The state with messages sent, in order. -/
def State.send (ms : List Message) (s : State) : State := { s with transit := s.transit ++ ms }

/-- An occurrence of a site kind sent to the Condition Table. -/
def State.report (k : SiteKind) (s : State) : State := s.send [.occurrence k.slot]

/-- The state with a channel record replaced. -/
def State.setChannel (c : Chan) (r : Channel) (s : State) : State := { s with channels := put s.channels c r }

/-- The state with a fault line replaced. -/
def State.setLine (n : Line) (l : FaultLine) (s : State) : State := { s with lines := put s.lines n l }

/-- An event that only a running part takes; held in reset or without supply it is not due (log entry 13). -/
def whenRunning (f : State → State) (s : State) : State := if s.phase = .running then f s else s

/-! ## Responses -/

/-- A response formed for Port A or B: it fills the slot and replaces an unread one (R174). -/
def SyncInterface.fill (i : SyncInterface) (frame : List Byte) : SyncInterface := { i with slot := some frame }

/-- A response formed for Port S: it goes into transmission, or waits, replacing one that waits (R176). -/
def AsyncInterface.accept (i : AsyncInterface) (frame : List Byte) : AsyncInterface :=
  match i.transmitting with
  | none => { i with transmitting := some ⟨frame, false⟩ }
  | some _ => { i with waiting := some frame }

/-- A response frame handed to a Port Interface. -/
def PortInterfaces.respond (i : PortInterfaces) (p : Port) (frame : List Byte) : PortInterfaces :=
  match p with
  | .a => { i with a := i.a.fill frame }
  | .b => { i with b := i.b.fill frame }
  | .s => { i with s := i.s.accept frame }

/-- The response to a request; a broadcast, which has no tag here, is not answered (R172). -/
def State.answer (p : Port) (tag : Option Byte) (r : Reply) (s : State) : State :=
  match tag with
  | none => s
  | some t => { s with ports := s.ports.respond p (responseFrame s.ports.unitAddress t r) }

/-- An owner takes the next request of a port (R172): what it does with it is f, which answers none where the request
is another one than the command names (then the command is not due, log entry 3). -/
def serve (o : Owner) (p : Port) (f : Request → State → Option (Reply × State)) (s : State) : State :=
  match s.take (Message.isRequest o p) with
  | some (.request _ _ tag body, s') =>
    match f body s' with
    | some (r, s'') => s''.answer p tag r
    | none => s
  | _ => s

/-- An owner takes a request that has no parameters. -/
def serveOnly (o : Owner) (p : Port) (req : Request) (f : State → Reply × State) (s : State) : State :=
  serve o p (fun body s => if body = req then some (f s) else none) s

/-! ## Authority (R143, R153) -/

/-- A port's record. -/
def AuthorityUnit.get (u : AuthorityUnit) : Port → PortRecord
  | .a => u.a | .b => u.b | .s => u.s

/-- The unit with a port's record replaced. -/
def AuthorityUnit.set (u : AuthorityUnit) (p : Port) (r : PortRecord) : AuthorityUnit :=
  match p with
  | .a => { u with a := r } | .b => { u with b := r } | .s => { u with s := r }

/-- The first port, in the order A, B, S, that holds a role. -/
def AuthorityUnit.portWith (u : AuthorityUnit) (r : Role) : Option Port :=
  [Port.a, Port.b, Port.s].find? fun p => decide ((u.get p).role = r)

/-- The port holding HOLDER, or none. -/
def AuthorityUnit.holder (u : AuthorityUnit) : Option Port := u.portWith .holder

/-- The port holding RESERVE, or none. -/
def AuthorityUnit.reserve (u : AuthorityUnit) : Option Port := u.portWith .reserve

/-- Whether a port is HOLDER at this moment (R153). -/
def State.isHolder (s : State) (p : Port) : Bool := decide ((s.authority.get p).role = .holder)

/-- The first step of every holder-only request (R153). -/
def holderOnly (p : Port) (f : State → Reply × State) (s : State) : Reply × State :=
  if s.isHolder p then f s else (.notHolder, s)

/-! ## Items (R182) -/

/-- The DONE of an accepted CONFIGURE or of a READ CONFIG: the item code and its bytes (R182). -/
def itemReply (i : Item) (bytes : List Byte) : Reply := .done (i.code :: bytes)

/-- A READ CONFIG of an item, taken by its owner: it changes no state (R182). -/
def readItem (i : Item) (p : Port) (reply : List Byte → State → Reply) (s : State) : State :=
  serve i.owner p
    (fun body s =>
      match body with
      | .readConfig i' params => if i' = i then some (reply params s, s) else none
      | _ => none) s

/-- A CONFIGURE of an item, taken by its owner (R182). -/
def configureItem (i : Item) (p : Port) (f : List Byte → State → Reply × State) (s : State) : State :=
  serve i.owner p
    (fun body s =>
      match body with
      | .configure i' value => if i' = i then some (f value s) else none
      | _ => none) s

/-! ## Ticks (R40, R41) -/

/-- The consumers of a tick (R41). -/
def tickConsumers : List TickConsumer :=
  .plan :: .authority :: (List.finRange 8).map .sequencer

/-- The epoch period in timebase units (R39). -/
def Timebase.period (t : Timebase) : Nat := t.prescale * t.modulo

/-- The end of an epoch: counter up by one, position 0, a tick carrying the new value to every consumer (R40). -/
def State.endEpoch (s : State) : State :=
  State.send (tickConsumers.map fun k => .tick k (s.timebase.counter + 1))
    { s with timebase := { s.timebase with counter := s.timebase.counter + 1, position := 0 } }

/-- The last unit of an epoch passes and the epoch ends (R40); not while the start-up load runs, which ends before the
first tick (R46, log entry 34). -/
def State.lastUnitPasses (s : State) : State := if s.licence.loading then s else s.endEpoch

/-- One timebase unit of 100 us passes (R39, R40): what an empty queue lets happen (log entry 5). -/
def State.unitPasses (s : State) : State :=
  if s.timebase.position + 1 < s.timebase.period then
    { s with timebase := { s.timebase with position := s.timebase.position + 1 } }
  else s.lastUnitPasses

/-- A consumer takes its next tick: f gets the epoch the tick carries and the state with the tick taken. -/
def takeTick (k : TickConsumer) (f : Word16 → State → State) (s : State) : State :=
  match s.take (Message.isTick k) with
  | some (.tick _ n, s') => f n s'
  | _ => s

/-! ## Initialize notices (R134) -/

/-- A block takes its initialize notice, acts, and reports to Mode Control (R134). -/
def takeInitNotice (b : InitBlock) (f : State → State) (s : State) : State :=
  match s.take (Message.isInitNotice b) with
  | some (_, s') => State.send [.initReport b] (f s')
  | none => s

end Sys2Proof.Machine
end

