-- ==== Sys2Proof/Machine/Admission.lean ====
section
/-!
DEFINITION. Entry checks, plan checks, licence admission and plan validation (R6 to R8, R35): what the Plan Controller
and Mode Control judge plans by.
-/

namespace Sys2Proof.Machine

/-! ## Entry checks (R6) -/

/-- The service a code names (R184). -/
def Service.ofCode : Nat → Option Service
  | 0 => some .outOfService
  | 1 => some .inService
  | _ => none

/-- The gain mode a code names (R184). -/
def GainMode.ofCode : Nat → Option GainMode
  | 0 => some .step
  | 1 => some .ramp
  | _ => none

/-- Checks 3 and 4 of R6 for one frequency. -/
def frequencyFits (raster freq : Nat) : Bool :=
  decide (30000 ≤ freq) && decide (freq ≤ 1000000) && decide (freq % raster = 0)

/-- Whether an optional number is absent or within a range. -/
def absentOrWithin (low high : Nat) : Option Nat → Bool
  | none => true
  | some n => decide (low ≤ n) && decide (n ≤ high)

/-- Checks 2 to 13 of R6 in order: the first field that fails. -/
def entryFault (raster : Nat) (c : Chan) (r : RawEntry) : Option Detail :=
  if Service.ofCode r.service = none then some .service
  else if !frequencyFits raster r.rxFreq then some .rxFreq
  else if !frequencyFits raster r.txFreq then some .txFreq
  else if r.txFreq = r.rxFreq then some .txFreq
  else if 600 < r.gainTarget then some .gainTarget
  else if GainMode.ofCode r.gainMode = none then some .gainMode
  else if r.rampRate.isSome != decide (GainMode.ofCode r.gainMode = some .ramp) then some .rampRate
  else if !absentOrWithin 1 50 r.rampRate then some .rampRate
  else if r.squelchOpen < r.squelchClose then some .squelchOpen
  else if ¬(1 ≤ r.squelchHoldoff ∧ r.squelchHoldoff ≤ 16) then some .squelchHoldoff
  else if !absentOrWithin 0 7 r.squelchSource then some .squelchSource
  else if r.squelchSource = some c.val then some .squelchSource
  else none

/-- The entry a record that passes the checks stores (R10). -/
def RawEntry.toEntry (r : RawEntry) : PlanEntry where
  service := (Service.ofCode r.service).getD .outOfService
  rxFreq := r.rxFreq
  txFreq := r.txFreq
  gainTarget := r.gainTarget
  gainMode := (GainMode.ofCode r.gainMode).getD .step
  rampRate := r.rampRate
  squelchOpen := r.squelchOpen
  squelchClose := r.squelchClose
  squelchHoldoff := r.squelchHoldoff
  squelchSource := r.squelchSource.bind chanOf
  reflLimit := r.reflLimit

/-! ## Plan checks (R7) -/

/-- Whether an entry is in service. -/
def PlanEntry.active (e : PlanEntry) : Bool := decide (e.service = .inService)

/-- Whether some in-service channel of a table meets a test. -/
def someInService (t : PlanTable) (test : Chan → PlanEntry → Bool) : Bool :=
  (List.finRange 8).any fun c => (t.get c).active && test c (t.get c)

/-- TX_CLASH at a channel: another in-service channel holds its tx_freq. -/
def txClash (t : PlanTable) (c : Chan) : Bool :=
  someInService t fun d e => decide (d ≠ c) && decide (e.txFreq = (t.get c).txFreq)

/-- RX_TX_CLASH at a channel: some in-service rx_freq equals its tx_freq. -/
def rxTxClash (t : PlanTable) (c : Chan) : Bool := someInService t fun _ e => decide (e.rxFreq = (t.get c).txFreq)

/-- SOURCE_INVALID at a channel: its source is out of service or itself names a source. -/
def sourceInvalid (t : PlanTable) (c : Chan) : Bool :=
  match (t.get c).squelchSource with
  | none => false
  | some d => !(t.get d).active || (t.get d).squelchSource.isSome

/-- OFF_RASTER at a channel. -/
def offRaster (raster : Nat) (t : PlanTable) (c : Chan) : Bool :=
  decide ((t.get c).rxFreq % raster ≠ 0) || decide ((t.get c).txFreq % raster ≠ 0)

/-- The lowest-numbered in-service channel that fails a check (R7). -/
def failing (t : PlanTable) (test : Chan → Bool) : Option Chan := lowestChan fun c => (t.get c).active && test c

/-- The plan checks in order: the first that fails, with the channel it names (R7). -/
def planFault (raster : Nat) (t : PlanTable) : Option (Detail × Chan) :=
  match failing t (txClash t) with
  | some c => some (.txClash, c)
  | none =>
    match failing t (rxTxClash t) with
    | some c => some (.rxTxClash, c)
    | none =>
      match failing t (sourceInvalid t) with
      | some c => some (.sourceInvalid, c)
      | none => (failing t (offRaster raster t)).map fun c => (.offRaster, c)

/-! ## Licence admission (R35) -/

/-- Whether a frequency lies in a window, both ends included (R21). -/
def withinWindow (low high freq : Nat) : Bool := decide (low ≤ freq) && decide (freq ≤ high)

/-- Conditions 1 and 2 of R35. -/
def licenceCovers (l : LicenceEntry) (e : PlanEntry) : Bool :=
  withinWindow l.txLow l.txHigh e.txFreq
    && (match l.input with | none => true | some w => withinWindow w.low w.high e.rxFreq)

/-- All three conditions of R35. -/
def licenceAdmits (l : LicenceEntry) (e : PlanEntry) : Bool :=
  licenceCovers l e && decide (e.gainTarget ≤ l.gainCeiling)

/-- Whether some non-empty slot of the stored table meets a test; the table is read in PROTECTED alone (R35). -/
def LicenceStore.anySlot (l : LicenceStore) (test : LicenceEntry → Bool) : Bool :=
  decide (l.storeState = .protected_) && l.stored.toList.any fun slot => slot.any test

/-- Whether the store admits a plan entry (R35). -/
def LicenceStore.admits (l : LicenceStore) (e : PlanEntry) : Bool := l.anySlot fun x => licenceAdmits x e

/-- Why an entry that is not admitted fails (R35). -/
def LicenceStore.reason (l : LicenceStore) (e : PlanEntry) : Detail :=
  if l.anySlot fun x => licenceCovers x e then .gainCeiling else .noWindow

/-- The first in-service entry, in channel order, that is not admitted (R35). -/
def LicenceStore.firstRefused (l : LicenceStore) (t : PlanTable) : Option Chan := failing t fun c => !l.admits (t.get c)

/-! ## Plan validation (R8) -/

/-- The number of a channel in a refusal payload. -/
def chanNumber (c : Chan) : Byte := BitVec.ofNat 8 c.val

/-- Plan validation of a candidate table: the refusal, or none (R8, R36). -/
def State.validate (s : State) (t : PlanTable) : Option Reply :=
  match planFault s.plan.raster t with
  | some (d, c) => some (.refused .plan d (chanNumber c))
  | none =>
    match s.licence.firstRefused t with
    | some c => some (.refused .licence (s.licence.reason (t.get c)) (chanNumber c))
    | none => none

end Sys2Proof.Machine
end

