-- ==== Sys2Proof/Machine/Plan.lean ====
section
/-!
DEFINITION. The Plan Controller's tables and items (chapter 1) and per-entry application (R64).
-/

namespace Sys2Proof.Machine

/-! ## Writing the active plan (R5) -/

/-- The entry changes of a write of the active plan: one for each channel whose entry differs (R5). -/
def entryChanges (old new : PlanTable) : List Message :=
  (List.finRange 8).filterMap fun c =>
    if old.get c = new.get c then none else some (.entryChange c (new.get c))

/-- The state with the Plan Controller's state replaced, and the entry changes of that write sent (R5). -/
def State.writePlan (new : PlanController) (s : State) : State :=
  State.send (entryChanges s.plan.active new.active) { s with plan := new }

/-! ## Editing (R9 to R13, R64) -/

/-- Steps 1 and 2 of R9, and step 3 for an edit that OPERATE under PER_ENTRY refuses. -/
def editing (p : Port) (wholePlanOnly : Bool) (f : State → Reply × State) (s : State) : Reply × State :=
  holderOnly p
    (fun s =>
      if s.plan.pendingActivation.isSome then (.refused .state .activationPending noNumber, s)
      else if wholePlanOnly ∧ s.plan.applyMode = .perEntry ∧ s.mode.mode = .operate then
        (.refused .state .applyMode noNumber, s)
      else f s) s

/-- The Plan Controller with an entry written into the staged plan (R10). -/
def PlanController.stage (c : Chan) (e : PlanEntry) (k : PlanController) : PlanController :=
  { k with staged := put k.staged c e }

/-- The Plan Controller with an entry written into both tables, revision up by one (R11, R64). -/
def PlanController.applyEntry (c : Chan) (e : PlanEntry) (k : PlanController) : PlanController :=
  { k with staged := put k.staged c e, active := put k.active c e, revision := k.revision + 1 }

/-- An entry that passed R9, under PER_ENTRY in OPERATE (R64). -/
def applyInOperate (c : Chan) (e : PlanEntry) (s : State) : Reply × State :=
  match s.validate (put s.plan.active c e) with
  | some r => (r, s)
  | none =>
    if (s.channels.get c).state.retuning then (.refused .notReady .sequencerBusy (chanNumber c), s)
    else (.done [], s.writePlan (s.plan.applyEntry c e))

/-- An entry that passed R9 (R10, R11, R64). -/
def storeEntry (c : Chan) (e : PlanEntry) (s : State) : Reply × State :=
  match s.plan.applyMode, s.mode.mode with
  | .wholePlan, _ => (.done [], { s with plan := s.plan.stage c e })
  | .perEntry, .standby => (.done [], s.writePlan (s.plan.applyEntry c e))
  | .perEntry, .operate => applyInOperate c e s

/-- STAGE ENTRY by steps 4 and 5 of R9. -/
def stageEntry (channel : Nat) (r : RawEntry) (s : State) : Reply × State :=
  match chanOf channel with
  | none => (.refused .range .channel noNumber, s)
  | some c =>
    match entryFault s.plan.raster c r with
    | some d => (.refused .range d (chanNumber c), s)
    | none => storeEntry c r.toEntry s

/-- STAGE CLEAR that passed R9 (R12). -/
def stageClear (s : State) : Reply × State := (.done [], { s with plan := { s.plan with staged := PlanTable.default } })

/-- STAGE COPY that passed R9 (R13). -/
def stageCopy (s : State) : Reply × State := (.done [], { s with plan := { s.plan with staged := s.plan.active } })

/-- STAGE_ENTRY (R9 to R11, R64). -/
def execStageEntry (p : Port) (s : State) : Host.Outcome State Fault Refusal :=
  .next <|
    serve .plan p
      (fun body s =>
        match body with
        | .stageEntry channel r => some (editing p false (stageEntry channel r) s)
        | _ => none) s

/-- STAGE_CLEAR (R9, R12). -/
def execStageClear (p : Port) (s : State) : Host.Outcome State Fault Refusal :=
  .next (serveOnly .plan p .stageClear (editing p true stageClear) s)

/-- STAGE_COPY (R9, R13). -/
def execStageCopy (p : Port) (s : State) : Host.Outcome State Fault Refusal :=
  .next (serveOnly .plan p .stageCopy (editing p true stageCopy) s)

/-! ## Reading (R16) -/

/-- The table a selector names: 0 STAGED, 1 ACTIVE (R184). -/
def PlanController.table (k : PlanController) : Nat → Option PlanTable
  | 0 => some k.staged
  | 1 => some k.active
  | _ => none

/-- READ ENTRY (R16). -/
def readEntryReply (table channel : Nat) (s : State) : Reply :=
  match s.plan.table table with
  | none => .refused .range .table noNumber
  | some t =>
    match chanOf channel with
    | none => .refused .range .channel noNumber
    | some c =>
      .done (natBytes 1 table ++ natBytes 1 channel ++ natBytes 2 s.plan.number.toNat
        ++ natBytes 2 s.plan.revision.toNat ++ encodeEntry (t.get c))

/-- READ_ENTRY (R16): any port, no state changed. -/
def execReadEntry (p : Port) (s : State) : Host.Outcome State Fault Refusal :=
  .next <|
    serve .plan p
      (fun body s =>
        match body with
        | .readEntry table channel => some (readEntryReply table channel s, s)
        | _ => none) s

/-! ## APPLY_MODE and RASTER (R17, R18) -/

/-- The apply mode a code names (R181). -/
def ApplyMode.ofCode : Nat → Option ApplyMode
  | 0 => some .wholePlan
  | 1 => some .perEntry
  | _ => none

/-- CONFIGURE of APPLY_MODE from the holder (R17). -/
def setApplyMode (value : List Byte) (s : State) : Reply × State :=
  if s.plan.pendingActivation.isSome then (.refused .state .activationPending noNumber, s)
  else match ApplyMode.ofCode (beNat value) with
    | none => (.badValue, s)
    | some m => (itemReply .applyMode value, { s with plan := { s.plan with applyMode := m } })

/-- CONFIGURE of RASTER from the holder (R18). -/
def setRaster (value : List Byte) (s : State) : Reply × State :=
  if s.mode.mode = .operate then (.wrongMode, s)
  else if 1 ≤ beNat value ∧ beNat value ≤ 1000 then
    (itemReply .raster value, { s with plan := { s.plan with raster := beNat value } })
  else (.badValue, s)

/-- CONFIGURE_APPLY_MODE (R17). -/
def execConfigureApplyMode (p : Port) (s : State) : Host.Outcome State Fault Refusal :=
  .next (configureItem .applyMode p (fun value => holderOnly p (setApplyMode value)) s)

/-- CONFIGURE_RASTER (R18). -/
def execConfigureRaster (p : Port) (s : State) : Host.Outcome State Fault Refusal :=
  .next (configureItem .raster p (fun value => holderOnly p (setRaster value)) s)

/-- READ_CONFIG_APPLY_MODE (R181, R182). -/
def execReadConfigApplyMode (p : Port) (s : State) : Host.Outcome State Fault Refusal :=
  .next (readItem .applyMode p (fun _ s => itemReply .applyMode [s.plan.applyMode.code]) s)

/-- READ_CONFIG_RASTER (R181, R182). -/
def execReadConfigRaster (p : Port) (s : State) : Host.Outcome State Fault Refusal :=
  .next (readItem .raster p (fun _ s => itemReply .raster (natBytes 2 s.plan.raster)) s)

/-! ## INITIALIZE (R20) -/

/-- The Plan Controller's initialize notice: a pending record abandoned, everything to defaults, entry changes sent. -/
def State.initializePlan (s : State) : State :=
  let s' := if s.plan.pendingActivation.isSome then s.report .activationAbandoned else s
  s'.writePlan PlanController.atReset

/-- PLAN_CONTROLLER_INITIALIZE (R20). -/
def execPlanControllerInitialize (s : State) : Host.Outcome State Fault Refusal :=
  .next (takeInitNotice .planController State.initializePlan s)

end Sys2Proof.Machine
end

