-- ==== Sys2Proof/Machine/Activation.lean ====
section
/-!
DEFINITION. Activation of the staged plan (chapter 4): arming, disarming, at once, at the target tick, abandonment.
-/

namespace Sys2Proof.Machine

/-! ## Carrying out and abandoning (R57, R61, R63) -/

/-- The Plan Controller after an activation under a plan number (R57 steps 1 to 4). -/
def PlanController.activated (number : Word16) (k : PlanController) : PlanController :=
  { k with active := k.staged, number := number, revision := k.revision + 1, pendingActivation := none }

/-- The state with the pending activation record replaced. -/
def State.setPending (x : Option PendingActivation) (s : State) : State :=
  { s with plan := { s.plan with pendingActivation := x } }

/-- An activation is carried out (R57). -/
def State.activate (number : Word16) (s : State) : State :=
  (s.report .activationDone).writePlan (s.plan.activated number)

/-- The pending record is removed with ACTIVATION_ABANDONED (R61, R63). -/
def State.abandon (s : State) : State := (s.setPending none).report .activationAbandoned

/-! ## Requests (R50 to R56) -/

/-- The target epoch a target kind and epoch name at counter c: 0 NEXT, 1 an epoch 1 to 4,096 ahead (R51). -/
def targetEpoch (c : Word16) (kind : Nat) (epoch : Word16) : Option Word16 :=
  match kind with
  | 0 => some (c + 1)
  | 1 => if 1 ≤ (epoch - c).toNat ∧ (epoch - c).toNat ≤ Config.armWindow then some epoch else none
  | _ => none

/-- ARM ACTIVATION from the holder, in the order of R50. -/
def armActivation (number : Word16) (kind : Nat) (epoch : Word16) (s : State) : Reply × State :=
  if s.plan.applyMode = .perEntry then (.refused .state .applyMode noNumber, s)
  else if s.mode.mode = .standby then (.wrongMode, s)
  else if s.plan.pendingActivation.isSome then (.refused .state .activationPending noNumber, s)
  else if number = 0 then (.refused .range .planNumber noNumber, s)
  else match targetEpoch s.timebase.counter kind epoch with
    | none => (.refused .range .target noNumber, s)
    | some t =>
      match s.validate s.plan.staged with
      | some r => (r, s)
      | none =>
        (.done (natBytes 2 number.toNat ++ natBytes 2 t.toNat), s.setPending (some ⟨number, t, none, s.standbyNotices⟩))

/-- DISARM from the holder (R53). -/
def disarm (s : State) : Reply × State :=
  match s.plan.pendingActivation with
  | none => (.refused .state .nothingPending noNumber, s)
  | some x => (.done (natBytes 2 x.planNumber.toNat ++ natBytes 2 x.target.toNat), s.setPending none)

/-- The lowest-numbered channel in TUNING or SETTLING (R54). -/
def State.busyChannel (s : State) : Option Chan := lowestChan fun c => (s.channels.get c).state.retuning

/-- ACTIVATE NOW that passed R54 (R55, R56). -/
def activateDone (number : Word16) (s : State) : Reply × State :=
  (.done (natBytes 2 number.toNat ++ natBytes 2 (s.plan.revision + 1).toNat), s.activate number)

/-- ACTIVATE NOW from the holder, in the order of R54. -/
def activateNow (number : Word16) (s : State) : Reply × State :=
  if s.plan.applyMode = .perEntry then (.refused .state .applyMode noNumber, s)
  else if s.plan.pendingActivation.isSome then (.refused .state .activationPending noNumber, s)
  else if number = 0 then (.refused .range .planNumber noNumber, s)
  else match s.validate s.plan.staged with
    | some r => (r, s)
    | none =>
      match s.mode.mode, s.busyChannel with
      | .operate, some c => (.refused .notReady .sequencerBusy (chanNumber c), s)
      | _, _ => activateDone number s

/-- ARM_ACTIVATION (R50 to R52). -/
def execArmActivation (p : Port) (s : State) : Host.Outcome State Fault Refusal :=
  .next <|
    serve .plan p
      (fun body s =>
        match body with
        | .armActivation number kind epoch => some (holderOnly p (armActivation number kind epoch) s)
        | _ => none) s

/-- DISARM (R53). -/
def execDisarm (p : Port) (s : State) : Host.Outcome State Fault Refusal :=
  .next (serveOnly .plan p .disarm (holderOnly p disarm) s)

/-- ACTIVATE_NOW (R54 to R57). -/
def execActivateNow (p : Port) (s : State) : Host.Outcome State Fault Refusal :=
  .next <|
    serve .plan p
      (fun body s =>
        match body with
        | .activateNow number => some (holderOnly p (activateNow number) s)
        | _ => none) s

/-! ## Ticks (R58 to R61) -/

/-- A deferral test with the overdue count raised to n (R60, R61). -/
def State.deferralTest (x : PendingActivation) (n : Nat) (s : State) : State :=
  if s.ready then s.activate x.planNumber
  else if n < Config.deferralTicks then s.setPending (some { x with overdue := some n })
  else s.abandon

/-- The target test (R59). -/
def State.targetTest (x : PendingActivation) (s : State) : State :=
  if s.ready then s.activate x.planNumber else s.setPending (some { x with overdue := some 0 })

/-- The Plan Controller takes the tick that carries epoch n (R58). -/
def State.planTick (n : Word16) (s : State) : State :=
  match s.plan.pendingActivation with
  | none => s
  | some x =>
    if s.mode.mode = .standby then s.abandon
    else match x.overdue with
      | some k => s.deferralTest x (k + 1)
      | none => if n = x.target then s.targetTest x else s

/-- Whether a tick taken now abandons the pending activation for its deferral (R61). -/
def State.givesUp (s : State) : Bool :=
  decide (s.mode.mode = .operate) && !s.ready
    && (match s.plan.pendingActivation.bind PendingActivation.overdue with
        | some k => decide (Config.deferralTicks ≤ k + 1)
        | none => false)

/-- Whether the Plan Controller takes a standby notice before its next tick: the site is in OPERATE again, and the pending
record outlived a departure, whose notice was sent after the arming and is to remove it (R36, R47, R63; DEDUCED, log entry
30). A record armed since the site entered OPERATE again is not met. -/
def State.noticeFirst (s : State) : Bool :=
  decide (s.mode.mode = .operate)
    && (match s.plan.pendingActivation with
        | some x => decide (x.oldNotices < s.standbyNotices)
        | none => false)

/-- The Plan Controller takes its next epoch tick, unless a standby notice comes first. -/
def State.takePlanTick (s : State) : State := if s.noticeFirst then s else takeTick .plan State.planTick s

/-- PLAN_CONTROLLER_TICK (R58 to R60): the Plan Controller takes its next epoch tick. -/
def execPlanControllerTick (s : State) : Host.Outcome State Fault Refusal :=
  .next s.takePlanTick

/-- ACTIVATION_ABANDONED (R61): the tick that brings the overdue count to 32 while readiness fails (log entry 4). -/
def execActivationAbandoned (s : State) : Host.Outcome State Fault Refusal :=
  .next (if s.givesUp then s.takePlanTick else s)

/-- The standby notice taken (R63). -/
def State.takeStandbyNotice (s : State) : State := if s.plan.pendingActivation.isSome then s.abandon else s

/-- STANDBY_NOTICE (R63). -/
def execStandbyNotice (s : State) : Host.Outcome State Fault Refusal :=
  .next <|
    match s.take Message.isStandbyNotice with
    | some (_, s') => s'.takeStandbyNotice
    | none => s

end Sys2Proof.Machine
end

