-- ==== Sys2Proof/Machine/Authority.lean ====
section
/-!
DEFINITION. The Authority Unit (chapter 9): roles, keepalive counts, the tick that lets roles lapse, KEEPALIVE_LIMIT.
-/

namespace Sys2Proof.Machine

/-! ## The port records -/

/-- The unit with every port record changed the same way. -/
def AuthorityUnit.mapRecords (f : PortRecord → PortRecord) (u : AuthorityUnit) : AuthorityUnit :=
  { u with a := f u.a, b := f u.b, s := f u.s }

/-- Whether some port's record meets a test. -/
def AuthorityUnit.anyRecord (f : PortRecord → Bool) (u : AuthorityUnit) : Bool := f u.a || f u.b || f u.s

/-- A port's count set to 0, its role kept (R145). -/
def PortRecord.renewed (r : PortRecord) : PortRecord := { r with count := 0 }

/-- A handover as one record sees it: a reserve becomes holder with count 0 (R148, R150). -/
def PortRecord.promoted (r : PortRecord) : PortRecord :=
  match r.role with
  | .reserve => ⟨.holder, 0⟩
  | .idle | .holder => r

/-- The DONE of an authority request: role and count of the port, the holder, the reserve, 255 for
none (R143, log entry 20). -/
def AuthorityUnit.standing (u : AuthorityUnit) (p : Port) : Reply :=
  .done ([(u.get p).role.code] ++ natBytes 1 (u.get p).count ++ [portCodeOr u.holder, portCodeOr u.reserve])

/-- An authority request that is carried out: the new port records, and their standing in the response (R143). -/
def State.stand (u : AuthorityUnit) (p : Port) (s : State) : Reply × State := (u.standing p, { s with authority := u })

/-! ## Requests (R146 to R149) -/

/-- CLAIM (R146). -/
def claimAuthority (p : Port) (s : State) : Reply × State :=
  match (s.authority.get p).role, s.authority.holder with
  | .holder, _ | .idle, none => s.stand (s.authority.set p ⟨.holder, 0⟩) p
  | _, _ => (.refused .held .holderPresent noNumber, s)

/-- RESERVE, in the order of R147. -/
def reserveAuthority (p : Port) (s : State) : Reply × State :=
  if p = .s then (.refused .role .reserveNotPermitted noNumber, s)
  else match (s.authority.get p).role with
    | .reserve => s.stand (s.authority.set p ⟨.reserve, 0⟩) p
    | .holder => (.refused .state .alreadyHolder noNumber, s)
    | .idle =>
      if s.authority.holder = none then (.refused .state .noHolder noNumber, s)
      else if s.authority.reserve ≠ none then (.refused .held .reservePresent noNumber, s)
      else s.stand (s.authority.set p ⟨.reserve, 0⟩) p

/-- The port records after a RELEASE (R148). -/
def AuthorityUnit.released (u : AuthorityUnit) (p : Port) : AuthorityUnit :=
  match (u.get p).role with
  | .idle => u
  | .reserve => u.set p PortRecord.idle
  | .holder => (u.set p PortRecord.idle).mapRecords PortRecord.promoted

/-- RELEASE (R148). -/
def releaseAuthority (p : Port) (s : State) : Reply × State :=
  let done := s.stand (s.authority.released p) p
  if (s.authority.get p).role = .holder ∧ s.authority.reserve ≠ none then
    (done.1, done.2.report .authorityHandover)
  else done

/-- KEEPALIVE (R149). -/
def keepAuthority (p : Port) (s : State) : Reply × State :=
  if (s.authority.get p).role = .idle then (.refused .role .noRole noNumber, s)
  else s.stand (s.authority.set p (s.authority.get p).renewed) p

/-! ## The tick (R150) -/

/-- Whether a record's raised count reaches the limit (R150 steps 1 and 2). -/
def PortRecord.lapses (limit : Nat) (r : PortRecord) : Bool := decide (r.role ≠ .idle) && decide (limit ≤ r.count + 1)

/-- A record after steps 1 and 2 of R150. -/
def PortRecord.ticked (limit : Nat) (r : PortRecord) : PortRecord :=
  if r.role = .idle then r
  else if r.lapses limit then PortRecord.idle
  else { r with count := r.count + 1 }

/-- Whether a port of this role lapses at the tick. -/
def AuthorityUnit.lapsing (u : AuthorityUnit) (role : Role) : Bool :=
  u.anyRecord fun r => decide (r.role = role) && r.lapses u.limit

/-- Whether a reserve survives the tick. -/
def AuthorityUnit.reserveSurvives (u : AuthorityUnit) : Bool :=
  u.anyRecord fun r => decide (r.role = .reserve) && !r.lapses u.limit

/-- Whether the tick hands authority to the reserve (R150 step 3). -/
def AuthorityUnit.handsOver (u : AuthorityUnit) : Bool := u.lapsing .holder && u.reserveSurvives

/-- The port records after a tick (R150). -/
def AuthorityUnit.ticked (u : AuthorityUnit) : AuthorityUnit :=
  if u.handsOver then u.mapRecords fun r => (r.ticked u.limit).promoted
  else u.mapRecords (PortRecord.ticked u.limit)

/-- What a tick reports (R150, R151). -/
def AuthorityUnit.tickReports (u : AuthorityUnit) : List SiteKind :=
  (if u.lapsing .holder then [.authorityLapsed] else [])
    ++ (if u.handsOver then [.authorityHandover] else [])
    ++ (if u.lapsing .reserve then [.reserveLapsed] else [])

/-- The Authority Unit takes a tick (R150). -/
def State.authorityTick (s : State) : State :=
  State.send (s.authority.tickReports.map fun k => .occurrence k.slot) { s with authority := s.authority.ticked }

/-- Whether some port lapses at a tick taken now. -/
def AuthorityUnit.someLapse (u : AuthorityUnit) : Bool := u.anyRecord (PortRecord.lapses u.limit)

/-! ## The commands -/

/-- CLAIM (R146). -/
def execClaim (p : Port) (s : State) : Host.Outcome State Fault Refusal :=
  .next (serveOnly .authority p .claim (claimAuthority p) s)

/-- RESERVE (R147). -/
def execReserve (p : Port) (s : State) : Host.Outcome State Fault Refusal :=
  .next (serveOnly .authority p .reserve (reserveAuthority p) s)

/-- RELEASE (R148). -/
def execRelease (p : Port) (s : State) : Host.Outcome State Fault Refusal :=
  .next (serveOnly .authority p .release (releaseAuthority p) s)

/-- KEEPALIVE (R149). -/
def execKeepalive (p : Port) (s : State) : Host.Outcome State Fault Refusal :=
  .next (serveOnly .authority p .keepalive (keepAuthority p) s)

/-- AUTHORITY_TICK (R150): the Authority Unit takes its next epoch tick. -/
def execAuthorityTick (s : State) : Host.Outcome State Fault Refusal :=
  .next (takeTick .authority (fun _ => State.authorityTick) s)

/-- KEEPALIVE_LAPSE (R150): the tick at which some port lapses (log entry 4). -/
def execKeepaliveLapse (s : State) : Host.Outcome State Fault Refusal :=
  .next (if s.authority.someLapse then takeTick .authority (fun _ => State.authorityTick) s else s)

/-- The record of a port at a CONFIGURE of KEEPALIVE_LIMIT: the count of a port that holds a role set to 0 (R155). -/
def PortRecord.restarted (r : PortRecord) : PortRecord := if r.role = .idle then r else r.renewed

/-- CONFIGURE of KEEPALIVE_LIMIT: the limit set, the count of every port that holds a role 0 (R155). -/
def setKeepaliveLimit (value : List Byte) (s : State) : Reply × State :=
  if 2 ≤ beNat value ∧ beNat value ≤ 255 then
    (itemReply .keepaliveLimit value,
      { s with authority := { s.authority.mapRecords PortRecord.restarted with limit := beNat value } })
  else (.refused .range .keepaliveLimit noNumber, s)

/-- CONFIGURE_KEEPALIVE_LIMIT (R155). -/
def execConfigureKeepaliveLimit (p : Port) (s : State) : Host.Outcome State Fault Refusal :=
  .next (configureItem .keepaliveLimit p (fun value => holderOnly p (setKeepaliveLimit value)) s)

/-- READ_CONFIG_KEEPALIVE_LIMIT (R155). -/
def execReadConfigKeepaliveLimit (p : Port) (s : State) : Host.Outcome State Fault Refusal :=
  .next (readItem .keepaliveLimit p (fun _ s => itemReply .keepaliveLimit (natBytes 1 s.authority.limit)) s)

end Sys2Proof.Machine
end

