-- ==== Sys2Proof/Machine/Conditions.lean ====
section
/-!
DEFINITION. The Condition Table (chapter 10): occurrences, reading, clearing, attention.
-/

namespace Sys2Proof.Machine

/-! ## Occurrences and deassertion notices (R160, R164) -/

/-- A slot after an occurrence at this epoch (R160). -/
def Slot.occurred (epoch : Word16) (t : Slot) : Slot where
  latched := true
  occurrences := Nat.min (t.occurrences + 1) Config.maxOccurrences
  lastEpoch := some epoch
  seenBy := PortSet.none
  clearPending := false

/-- A port's attention after an occurrence of a kind (R160). -/
def Attention.called (kind : Nat) (x : Attention) : Attention := { x with latch := x.latch || x.mask.getLsbD kind }

/-- The table with one slot replaced. -/
def ConditionTable.setSlot (i : SlotNo) (t : Slot) (k : ConditionTable) : ConditionTable :=
  { k with slots := put k.slots i t }

/-- The table after an occurrence for a slot (R160). -/
def ConditionTable.occurred (i : SlotNo) (epoch : Word16) (k : ConditionTable) : ConditionTable :=
  ConditionTable.formLines
    { k.setSlot i ((k.slots.get i).occurred epoch) with
      a := k.a.called (kindOf i), b := k.b.called (kindOf i), s := k.s.called (kindOf i) }

/-- The table after a deassertion notice of a line (R164). -/
def ConditionTable.deasserted (n : Line) (k : ConditionTable) : ConditionTable :=
  if (k.slots.get (lineSlot n)).clearPending then (k.setSlot (lineSlot n) Slot.clear).formLines else k.formLines

/-- The state with the Condition Table's state replaced. -/
def State.setConditions (k : ConditionTable) (s : State) : State := { s with conditions := k }

/-- OCCURRENCE (R160): the Condition Table takes the next occurrence of a slot, after a deassertion notice sent
before it (R161). -/
def execOccurrence (i : SlotNo) (s : State) : Host.Outcome State Fault Refusal :=
  .next <|
    match s.take (Message.concernsSlot i) with
    | some (.occurrence _, s') => s'.setConditions (s'.conditions.occurred i s'.timebase.counter)
    | _ => s

/-- DEASSERTION_NOTICE (R164): the Condition Table takes a line's next deassertion notice, after an occurrence sent
before it (R161). -/
def execDeassertionNotice (n : Line) (s : State) : Host.Outcome State Fault Refusal :=
  .next <|
    match s.take (Message.concernsSlot (lineSlot n)) with
    | some (.deassertion _, s') => s'.setConditions (s'.conditions.deasserted n)
    | _ => s

/-! ## Reading (R162) -/

/-- The latched slots from a start slot on, in ascending order. -/
def ConditionTable.latchedFrom (k : ConditionTable) (start : Nat) : List SlotNo :=
  (List.finRange 75).filter fun i => decide (start ≤ i.val) && (k.slots.get i).latched

/-- The slots a READ CONDITIONS selects (R162). -/
def ConditionTable.selected (k : ConditionTable) (start : Nat) : List SlotNo :=
  (k.latchedFrom start).take Config.recordsPerRead

/-- The slots with a port marked in the seen-by set of each slot listed (R162). -/
def markSeen (p : Port) (is : List SlotNo) (slots : Vector Slot 75) : Vector Slot 75 :=
  Vector.ofFn fun i =>
    if i ∈ is then { slots.get i with seenBy := (slots.get i).seenBy.add p } else slots.get i

/-- The table after a READ CONDITIONS of a port (R162). -/
def ConditionTable.readBy (p : Port) (start : Nat) (k : ConditionTable) : ConditionTable :=
  ConditionTable.formLines { k with slots := markSeen p (k.selected start) k.slots }

/-- The DONE of a READ CONDITIONS, from the table before it and the table after it (R162, R184); the more-indicator is
sent as 1 where set and 0 where clear (log entry 20). -/
def conditionsReply (start : Nat) (k after : ConditionTable) : Reply :=
  .done (natBytes 1 (k.selected start).length
    ++ [boolByte (decide (Config.recordsPerRead < (k.latchedFrom start).length))]
    ++ (k.selected start).flatMap fun i => encodeSlot i (after.slots.get i))

/-- A request naming a slot that is not in the table (R162, R163). -/
def Reply.badSlot : Reply := .refused .range .conditionSlot noNumber

/-- READ CONDITIONS (R162). -/
def readConditions (p : Port) (start : Nat) (s : State) : Reply × State :=
  if start < 75 then
    (conditionsReply start s.conditions (s.conditions.readBy p start), s.setConditions (s.conditions.readBy p start))
  else (.badSlot, s)

/-- READ_CONDITIONS (R162). -/
def execReadConditions (p : Port) (s : State) : Host.Outcome State Fault Refusal :=
  .next <|
    serve .conditions p
      (fun body s =>
        match body with
        | .readConditions start => some (readConditions p start s)
        | _ => none) s

/-! ## Clearing (R163) -/

/-- The result of one listed slot, in the order of the codes (R163). -/
inductive ClearResult where
  | cleared | clearPending | notCleared
  deriving DecidableEq, Repr

/-- The code of a result (R163). -/
def ClearResult.code : ClearResult → Byte
  | .cleared => 0 | .clearPending => 1 | .notCleared => 2

/-- Whether a slot's line is asserted under EDGE_AND_LEVEL and so holds it back from clearing (R163). -/
def heldByLine (lines : Vector FaultLine 8) (i : SlotNo) : Bool :=
  match lineOfSlot i with
  | none => false
  | some n => decide ((lines.get n).config.sensitivity = .edgeAndLevel) && (lines.get n).asserted

/-- One entry of a CLEAR CONDITIONS: its result and the slot after it (R163). DESIGN CHOICE: a slot already clear-pending
is judged by the same table, so a line found EDGE or deasserted ends it here, beside the three events of R164 (log
entry 33). -/
def clearOne (lines : Vector FaultLine 8) (p : Port) (i : SlotNo) (t : Slot) : ClearResult × Slot :=
  if t.latched && t.seenBy.has p then
    if heldByLine lines i then (.clearPending, { t with clearPending := true }) else (.cleared, Slot.clear)
  else (.notCleared, t)

/-- The entries of a CLEAR CONDITIONS in list order: the results' bytes and the slots after them (R163). -/
def clearAll (lines : Vector FaultLine 8) (p : Port) : List SlotNo → Vector Slot 75 → List Byte × Vector Slot 75
  | [], slots => ([], slots)
  | i :: is, slots =>
    let x := clearOne lines p i (slots.get i)
    let rest := clearAll lines p is (put slots i x.2)
    (BitVec.ofNat 8 i.val :: x.1.code :: rest.1, rest.2)

/-- The slots a list of bytes names; none where a byte names no slot. -/
def slotsOf : List Byte → Option (List SlotNo)
  | [] => some []
  | b :: bs =>
    match slotOf b.toNat, slotsOf bs with
    | some i, some is => some (i :: is)
    | _, _ => none

/-- CLEAR CONDITIONS (R163). -/
def clearConditions (p : Port) (list : List Byte) (s : State) : Reply × State :=
  if Config.maxClears < list.length then (.refused .range .clearCount noNumber, s)
  else match slotsOf list with
    | none => (.badSlot, s)
    | some is =>
      let x := clearAll s.lines p is s.conditions.slots
      (.done (natBytes 1 is.length ++ x.1), s.setConditions ({ s.conditions with slots := x.2 }).formLines)

/-- CLEAR_CONDITIONS (R163). -/
def execClearConditions (p : Port) (s : State) : Host.Outcome State Fault Refusal :=
  .next <|
    serve .conditions p
      (fun body s =>
        match body with
        | .clearConditions list => some (clearConditions p list s)
        | _ => none) s

/-! ## Attention (R166 to R168) -/

/-- The attention mode a code names (R178). -/
def AttentionMode.ofCode : Nat → Option AttentionMode
  | 0 => some .edge
  | 1 => some .level
  | _ => none

/-- Whether a mask names no kind above 18 (R166). -/
def maskFits (mask : Mask24) : Bool := decide (mask.toNat < 2 ^ 19)

/-- The three bytes of a mask (R178). -/
def maskBytes (mask : Mask24) : List Byte := natBytes 3 mask.toNat

/-- The table with a port's mask and mode replaced and the lines formed anew (R166). -/
def ConditionTable.withAttention (p : Port) (mask : Mask24) (mode : AttentionMode) (k : ConditionTable) :
    ConditionTable :=
  (k.setAttention p { k.attention p with mask := mask, mode := mode }).formLines

/-- SET ATTENTION, in the order of R166. -/
def setAttention (p : Port) (mask : Mask24) (mode : Nat) (s : State) : Reply × State :=
  if !maskFits mask then (.refused .range .attentionMask noNumber, s)
  else match AttentionMode.ofCode mode with
    | none => (.refused .range .attentionMode noNumber, s)
    | some m => (.done (maskBytes mask ++ [m.code]), s.setConditions (s.conditions.withAttention p mask m))

/-- SET_ATTENTION (R166). -/
def execSetAttention (p : Port) (s : State) : Host.Outcome State Fault Refusal :=
  .next <|
    serve .conditions p
      (fun body s =>
        match body with
        | .setAttention mask mode => some (setAttention p mask mode s)
        | _ => none) s

/-- The table with a port's attention latch cleared and the lines formed anew (R168). -/
def ConditionTable.acknowledged (p : Port) (k : ConditionTable) : ConditionTable :=
  (k.setAttention p { k.attention p with latch := false }).formLines

/-- ACKNOWLEDGE (R168). -/
def execAcknowledge (p : Port) (s : State) : Host.Outcome State Fault Refusal :=
  .next (serveOnly .conditions p .acknowledge (fun s => (.done [], s.setConditions (s.conditions.acknowledged p))) s)

/-- The DONE of a READ CONFIG of ATTENTION: mask, mode and latch of the port (R166, R182); the latch is sent as 1 where
set and 0 where clear (log entry 20). -/
def attentionReply (x : Attention) : Reply := itemReply .attention_ (maskBytes x.mask ++ [x.mode.code, boolByte x.latch])

/-- READ_CONFIG_ATTENTION (R166, R182). -/
def execReadConfigAttention (p : Port) (s : State) : Host.Outcome State Fault Refusal :=
  .next (readItem .attention_ p (fun _ s => attentionReply (s.conditions.attention p)) s)

/-- A holder's CONFIGURE of a read-only item (R115, R166). -/
def Reply.isReadOnly : Reply := .refused .range .readOnly noNumber

/-- CONFIGURE_ATTENTION (R166, R182): refused. -/
def execConfigureAttention (p : Port) (s : State) : Host.Outcome State Fault Refusal :=
  .next (configureItem .attention_ p (fun _ => holderOnly p fun s => (.isReadOnly, s)) s)

/-! ## INITIALIZE (R170) -/

/-- A port's attention at an initialize notice: mask and mode kept, latch cleared (R170). -/
def Attention.unlatched (x : Attention) : Attention := { x with latch := false }

/-- The table after its initialize notice (R170). -/
def ConditionTable.initialized (k : ConditionTable) : ConditionTable :=
  ConditionTable.formLines ⟨Vector.replicate 75 Slot.clear, k.a.unlatched, k.b.unlatched, k.s.unlatched⟩

/-- CONDITION_TABLE_INITIALIZE (R170). -/
def execConditionTableInitialize (s : State) : Host.Outcome State Fault Refusal :=
  .next (takeInitNotice .conditionTable (fun s => s.setConditions s.conditions.initialized) s)

end Sys2Proof.Machine
end

