-- ==== Sys2Proof/Machine/FaultLines.lean ====
section
/-!
DEFINITION. The Fault Line Monitor (R136 to R142): filtering, assertion and deassertion, line configuration.
-/

namespace Sys2Proof.Machine

/-! ## Assertion and deassertion (R139, R140) -/

/-- What a line's ACTION sends at an assertion, beside the occurrence (R139). -/
def actionMessages (n : Line) (k : LineConfig) : List Message :=
  match k.action with
  | .report => []
  | .shutdown => ((List.finRange 8).filter fun c => k.channels.getLsbD c.val).map .faultShutdown
  | .standby => [.faultStandby n]

/-- What an assertion of a line sends (R139). -/
def assertionMessages (n : Line) (k : LineConfig) : List Message := .occurrence (lineSlot n) :: actionMessages n k

/-- What a change of a line from one record to another sends (R138 to R140). -/
def lineMessages (n : Line) (old new : FaultLine) : List Message :=
  if new.asserted = old.asserted then []
  else if new.asserted then assertionMessages n new.config
  else [.deassertion n]

/-- A line's record replaced, with the assertion or deassertion that follows (R138). -/
def State.changeLine (n : Line) (new : FaultLine) (s : State) : State :=
  State.send (lineMessages n (s.lines.get n) new) (s.setLine n new)

/-! ## Filtering (R136) -/

/-- FAULT_PIN_CHANGE (R136): a filter interval begins or is dropped as the two levels differ or agree (log entry 19). -/
def execFaultPinChange (n : Line) (high : Bool) (s : State) : Host.Outcome State Fault Refusal :=
  .next (whenRunning (fun s => s.setLine n { s.lines.get n with pinHigh := high }) s)

/-- FILTER_INTERVAL_END (R136): the filtered level takes the pin's level, a filter event. -/
def execFilterIntervalEnd (n : Line) (s : State) : Host.Outcome State Fault Refusal :=
  .next <|
    whenRunning
      (fun s =>
        if (s.lines.get n).filtering then
          s.changeLine n { s.lines.get n with filteredHigh := (s.lines.get n).pinHigh }
        else s) s

/-! ## Configuration (R137, R138) -/

/-- The polarity a code names (R181). -/
def Polarity.ofCode : Nat → Option Polarity
  | 0 => some .activeLow
  | 1 => some .activeHigh
  | _ => none

/-- The sensitivity a code names (R181). -/
def Sensitivity.ofCode : Nat → Option Sensitivity
  | 0 => some .edge
  | 1 => some .edgeAndLevel
  | _ => none

/-- The action a code names (R181). -/
def LineAction.ofCode : Nat → Option LineAction
  | 0 => some .report
  | 1 => some .shutdown
  | 2 => some .standby
  | _ => none

/-- The four fields of a LINE value; a channel set byte names no channel above 7 (R138, R181). -/
def lineConfigOf (value : List Byte) : Option LineConfig :=
  match Polarity.ofCode (fieldAt value 1 1), Sensitivity.ofCode (fieldAt value 2 1),
    LineAction.ofCode (fieldAt value 3 1) with
  | some p, some t, some a => some ⟨p, t, a, BitVec.ofNat 8 (fieldAt value 4 1)⟩
  | _, _, _ => none

/-- CONFIGURE of LINE from the holder, in the order of R138. -/
def setLineConfig (value : List Byte) (s : State) : Reply × State :=
  if s.mode.mode = .operate then (.wrongMode, s)
  else match chanOf (fieldAt value 0 1) with
    | none => (.refused .range .line noNumber, s)
    | some n =>
      match lineConfigOf value with
      | none => (.refused .range .lineField (BitVec.ofNat 8 n.val), s)
      | some k => (itemReply .line value, s.changeLine n { s.lines.get n with config := k })

/-- CONFIGURE_LINE (R138). -/
def execConfigureLine (p : Port) (s : State) : Host.Outcome State Fault Refusal :=
  .next (configureItem .line p (fun value => holderOnly p (setLineConfig value)) s)

/-- READ CONFIG of LINE (R138, R182). -/
def readLineReply (params : List Byte) (s : State) : Reply :=
  match chanOf (fieldAt params 0 1) with
  | none => .refused .range .line noNumber
  | some n =>
    itemReply .line
      (natBytes 1 n.val ++ encodeLineConfig (s.lines.get n).config
        ++ [boolByte (s.lines.get n).filteredHigh, boolByte (s.lines.get n).asserted])

/-- READ_CONFIG_LINE (R138, R182). -/
def execReadConfigLine (p : Port) (s : State) : Host.Outcome State Fault Refusal :=
  .next (readItem .line p readLineReply s)

/-! ## INITIALIZE (R142) -/

/-- A line under the default configuration, its levels kept (R142). -/
def FaultLine.toDefault (l : FaultLine) : FaultLine := { l with config := LineConfig.default }

/-- Every line to the default configuration, each re-evaluated at the same event (R142). -/
def State.initializeLines (s : State) : State :=
  State.send ((List.finRange 8).flatMap fun n => lineMessages n (s.lines.get n) (s.lines.get n).toDefault)
    { s with lines := Vector.ofFn fun n => (s.lines.get n).toDefault }

/-- FAULT_LINE_INITIALIZE (R142). -/
def execFaultLineInitialize (s : State) : Host.Outcome State Fault Refusal :=
  .next (takeInitNotice .faultLineMonitor State.initializeLines s)

end Sys2Proof.Machine
end

