-- ==== Sys2Proof/Machine/Level.lean ====
section
/-!
DEFINITION. The Level Monitor (chapter 7): samples, windows, results, the report queue, measurement configuration.
-/

namespace Sys2Proof.Machine

/-! ## Samples (R108 to R111) -/

/-- The number a list of bits spells, most significant bit first. -/
def bitsNat (bits : List Bool) : Nat := bits.foldl (fun n b => 2 * n + b.toNat) 0

/-- A sample word split into its tags and code (R108). -/
structure Sample where
  channel : Nat
  quantity : Nat
  code : Nat
  deriving DecidableEq, Repr

/-- The sample of the bits shifted in while SPFR was asserted: its first 24; none where fewer came (R108). -/
def sampleOf (bits : List Bool) : Option Sample :=
  if bits.length < 24 then none
  else some ⟨bitsNat (bits.take 4), bitsNat ((bits.drop 4).take 4), bitsNat ((bits.drop 8).take 16)⟩

/-- A code converted to a level (R111). -/
def SampleFormat.level (f : SampleFormat) (code : Nat) : Int :=
  match f with
  | .offsetBinary => (code : Int) - 32768
  | .twosComplement => if code < 32768 then (code : Int) else (code : Int) - 65536

/-! ## Accumulators and results (R112 to R114) -/

/-- What one wrap of the sum counts (R112). -/
def wrapSize : Int := 16777216

/-- The true sum of an accumulator (R112). -/
def Accumulator.trueSum (x : Accumulator) : Int := x.sum + x.wraps * wrapSize

/-- A sum and its wraps after step 2 of R113. -/
def wrapSum (sum wraps : Int) : Int × Int :=
  if 8388607 < sum then (sum - wrapSize, wraps + 1)
  else if sum < -8388608 then (sum + wrapSize, wraps - 1)
  else (sum, wraps)

/-- The lesser of a level and an optional level (R113 step 3). -/
def lowerOf (m : Option Int) (level : Int) : Int :=
  match m with
  | none => level
  | some x => if level < x then level else x

/-- The greater of a level and an optional level (R113 step 3). -/
def upperOf (m : Option Int) (level : Int) : Int :=
  match m with
  | none => level
  | some x => if x < level then level else x

/-- A level added to an accumulator (R113). -/
def Accumulator.add (level : Int) (x : Accumulator) : Accumulator where
  sum := (wrapSum (x.sum + level) x.wraps).1
  wraps := (wrapSum (x.sum + level) x.wraps).2
  count := x.count + 1
  min := some (lowerOf x.min level)
  max := some (upperOf x.max level)

/-- The window result of an accumulator (R114); min and max are present, a level having been added. -/
def Accumulator.result (c : Chan) (q : Quantity) (stamp : Word16) (x : Accumulator) : WindowResult where
  channel := c
  quantity := q
  stamp := stamp
  count := x.count
  mean := x.trueSum.tdiv x.count
  min := x.min.getD 0
  max := x.max.getD 0
  sum := x.sum
  wraps := x.wraps

/-- The pair of a quantity. -/
def Meters.get (m : Meters) : Quantity → Meter
  | .rx => m.rx | .fwd => m.fwd | .refl => m.refl

/-- The pairs of a channel with one replaced. -/
def Meters.set (m : Meters) (q : Quantity) (x : Meter) : Meters :=
  match q with
  | .rx => { m with rx := x } | .fwd => { m with fwd := x } | .refl => { m with refl := x }

/-- The pair of a channel and a quantity. -/
def LevelMonitor.meter (l : LevelMonitor) (c : Chan) (q : Quantity) : Meter := (l.meters.get c).get q

/-- The monitor with a pair replaced. -/
def LevelMonitor.setMeter (c : Chan) (q : Quantity) (x : Meter) (l : LevelMonitor) : LevelMonitor :=
  { l with meters := put l.meters c ((l.meters.get c).set q x) }

/-! ## Delivery and offers (R116, R119) -/

/-- Whether a channel's sequencer receives a result (R116). -/
def State.receives (s : State) (w : WindowResult) (c : Chan) : Bool :=
  decide (c = w.channel)
    || (decide (w.quantity = .rx) && decide ((s.channels.get c).entry.squelchSource = some w.channel))

/-- The deliveries of a result (R116). -/
def State.deliveries (s : State) (w : WindowResult) : List Message :=
  ((List.finRange 8).filter (s.receives w)).map fun c => .result c w

/-- The report record of a result with a loss field (R119). -/
def WindowResult.toReport (loss : Bool) (w : WindowResult) : ReportRecord where
  channel := w.channel
  quantity := w.quantity
  loss := loss
  stamp := w.stamp
  mean := w.mean
  spread := (w.max - w.min).toNat

/-- Whether a pair is in REPORT_SELECT (R181). -/
def LevelMonitor.selects (l : LevelMonitor) (c : Chan) (q : Quantity) : Bool :=
  l.reportSelect.getLsbD (3 * c.val + q.number)

/-- The monitor after an offer (R119). -/
def LevelMonitor.offered (w : WindowResult) (l : LevelMonitor) : LevelMonitor :=
  if l.reports.length < Config.reportCapacity then
    { l with reports := l.reports ++ [w.toReport l.lossMark], lossMark := false }
  else { l with lossMark := true }

/-- What an offer reports (R119). -/
def LevelMonitor.offerReports (l : LevelMonitor) : List SiteKind :=
  if l.reports.length < Config.reportCapacity then
    if l.reports.length + 1 = l.reportThreshold then [.reportsWaiting] else []
  else [.reportOverflow]

/-- A result offered where its pair is selected (R114 step 4). -/
def State.offer (w : WindowResult) (s : State) : State :=
  if s.level.selects w.channel w.quantity then
    State.send (s.level.offerReports.map fun k => .occurrence k.slot) { s with level := s.level.offered w }
  else s

/-- A window completes with this result (R114 steps 1 to 4). -/
def State.completeWindow (w : WindowResult) (s : State) : State :=
  State.offer w
    (State.send (s.deliveries w)
      { s with level := s.level.setMeter w.channel w.quantity ⟨Accumulator.empty, some w⟩ })

/-- A level added to the pair of a channel and a quantity (R113). -/
def State.addLevel (c : Chan) (q : Quantity) (level : Int) (s : State) : State :=
  let x := (s.level.meter c q).acc.add level
  if x.count = s.level.windowLength then s.completeWindow (x.result c q s.timebase.counter)
  else { s with level := s.level.setMeter c q { s.level.meter c q with acc := x } }

/-- A sample whose tags are valid, by its channel's state (R110). -/
def State.judgeSample (c : Chan) (q : Quantity) (code : Nat) (s : State) : State :=
  if (s.channels.get c).state = .off then s else s.addLevel c q (s.level.sampleFormat.level code)

/-- A word of the Sample Port taken (R108, R109). -/
def State.takeSample (bits : List Bool) (s : State) : State :=
  match sampleOf bits with
  | none => s.report .sampleTagError
  | some x =>
    match chanOf x.channel, quantityOf x.quantity with
    | some c, some q => s.judgeSample c q x.code
    | _, _ => s.report .sampleTagError

/-- The bits of a word that count: of a word begun before the end of the last reset, those that came after the end; of
any other, all (R125, log entry 18). -/
def LevelMonitor.counted (bits : WordBits) (l : LevelMonitor) : List Bool :=
  if l.straddling then bits.after else bits.before ++ bits.after

/-- The Level Monitor once a word has ended: the next word is whole (R125). -/
def State.wordEnded (s : State) : State := { s with level := { s.level with straddling := false } }

/-- SAMPLE_ARRIVAL (R108, R125): a word ends on the Sample Port; the operand holds its bits, those before and those after
the end of a reset that it straddles (log entry 18). DESIGN CHOICE: a word that straddles the end with 24 or more edges after
it is taken as a sample of the first 24 of those (log entry 32). -/
def execSampleArrival (bits : WordBits) (s : State) : Host.Outcome State Fault Refusal :=
  .next (whenRunning (fun s => s.wordEnded.takeSample (s.level.counted bits)) s)

/-- OFF_NOTICE (R117): the Level Monitor takes a channel's OFF notice. -/
def execOffNotice (c : Chan) (s : State) : Host.Outcome State Fault Refusal :=
  .next <|
    match s.take (Message.isOffNotice c) with
    | some (_, s') => { s' with level := { s'.level with meters := put s'.level.meters c Meters.empty } }
    | none => s

/-! ## The report queue (R120, R121) -/

/-- READ REPORTS (R120). -/
def readReports (n : Nat) (s : State) : Reply × State :=
  if 1 ≤ n ∧ n ≤ Config.recordsPerRead then
    (.done (natBytes 1 (s.level.reports.take n).length ++ natBytes 1 (s.level.reports.drop n).length
        ++ (s.level.reports.take n).flatMap encodeReport),
      { s with level := { s.level with reports := s.level.reports.drop n } })
  else (.refused .range .reportCount noNumber, s)

/-- READ_REPORTS (R120): any port. -/
def execReadReports (p : Port) (s : State) : Host.Outcome State Fault Refusal :=
  .next <|
    serve .level p
      (fun body s =>
        match body with
        | .readReports n => some (readReports n s)
        | _ => none) s

/-- FLUSH REPORTS from the holder (R121). -/
def flushReports (s : State) : Reply × State :=
  (.done (natBytes 1 s.level.reports.length), { s with level := { s.level with reports := [] } })

/-- FLUSH_REPORTS (R121). -/
def execFlushReports (p : Port) (s : State) : Host.Outcome State Fault Refusal :=
  .next (serveOnly .level p .flushReports (holderOnly p flushReports) s)

/-! ## Configuration (R123, R124) -/

/-- Whether an accumulator is empty (R112). -/
def Accumulator.isEmpty (x : Accumulator) : Bool := decide (x = Accumulator.empty)

/-- Whether a channel measures: it is not OFF, or one of its accumulators is not empty, the test of R124 step 4 as it is
written. DESIGN CHOICE (log entry 35): a channel in OFF with empty accumulators whose OFF notice is still untaken does not
measure, so the request is accepted with that channel's latest results still present. -/
def State.measuring (s : State) (c : Chan) : Bool :=
  decide ((s.channels.get c).state ≠ .off)
    || !((s.level.meters.get c).rx.acc.isEmpty && (s.level.meters.get c).fwd.acc.isEmpty
      && (s.level.meters.get c).refl.acc.isEmpty)

/-- A CONFIGURE of WINDOW_LENGTH or SAMPLE_FORMAT from the holder, in the order of R124: the monitor as set, or none
where the value is out of range. -/
def setMeasurement (i : Item) (value : List Byte) (set : Option LevelMonitor) (s : State) : Reply × State :=
  if s.mode.mode = .operate then (.wrongMode, s)
  else match set with
    | none => (.badValue, s)
    | some l =>
      match lowestChan s.measuring with
      | some c => (.refused .state .measurementActive (BitVec.ofNat 8 c.val), s)
      | none => (itemReply i value, { s with level := l })

/-- The monitor with WINDOW_LENGTH set, where the value is 1 to 1,024 (R124). -/
def LevelMonitor.withWindowLength (l : LevelMonitor) (n : Nat) : Option LevelMonitor :=
  if 1 ≤ n ∧ n ≤ 1024 then some { l with windowLength := n } else none

/-- The monitor with SAMPLE_FORMAT set, where the code names a format (R124, R181). -/
def LevelMonitor.withSampleFormat (l : LevelMonitor) : Nat → Option LevelMonitor
  | 0 => some { l with sampleFormat := .offsetBinary }
  | 1 => some { l with sampleFormat := .twosComplement }
  | _ => none

/-- CONFIGURE_WINDOW_LENGTH (R124). -/
def execConfigureWindowLength (p : Port) (s : State) : Host.Outcome State Fault Refusal :=
  .next <|
    configureItem .windowLength p
      (fun value =>
        holderOnly p fun s => setMeasurement .windowLength value (s.level.withWindowLength (beNat value)) s) s

/-- CONFIGURE_SAMPLE_FORMAT (R124). -/
def execConfigureSampleFormat (p : Port) (s : State) : Host.Outcome State Fault Refusal :=
  .next <|
    configureItem .sampleFormat p
      (fun value =>
        holderOnly p fun s => setMeasurement .sampleFormat value (s.level.withSampleFormat (beNat value)) s) s

/-- CONFIGURE of REPORT_SELECT from the holder (R123). -/
def setReportSelect (value : List Byte) (s : State) : Reply × State :=
  (itemReply .reportSelect value, { s with level := { s.level with reportSelect := BitVec.ofNat 24 (beNat value) } })

/-- CONFIGURE of REPORT_THRESHOLD from the holder (R123). -/
def setReportThreshold (value : List Byte) (s : State) : Reply × State :=
  if 1 ≤ beNat value ∧ beNat value ≤ Config.reportCapacity then
    (itemReply .reportThreshold value, { s with level := { s.level with reportThreshold := beNat value } })
  else (.badValue, s)

/-- CONFIGURE_REPORT_SELECT (R123). -/
def execConfigureReportSelect (p : Port) (s : State) : Host.Outcome State Fault Refusal :=
  .next (configureItem .reportSelect p (fun value => holderOnly p (setReportSelect value)) s)

/-- CONFIGURE_REPORT_THRESHOLD (R123). -/
def execConfigureReportThreshold (p : Port) (s : State) : Host.Outcome State Fault Refusal :=
  .next (configureItem .reportThreshold p (fun value => holderOnly p (setReportThreshold value)) s)

/-- CONFIGURE_LATEST_RESULT (R115, R182): refused. -/
def execConfigureLatestResult (p : Port) (s : State) : Host.Outcome State Fault Refusal :=
  .next <|
    configureItem .latestResult p
      (fun _ => holderOnly p fun s => (.refused .range .readOnly noNumber, s)) s

/-- READ_CONFIG_WINDOW_LENGTH (R181, R182). -/
def execReadConfigWindowLength (p : Port) (s : State) : Host.Outcome State Fault Refusal :=
  .next (readItem .windowLength p (fun _ s => itemReply .windowLength (natBytes 2 s.level.windowLength)) s)

/-- READ_CONFIG_SAMPLE_FORMAT (R181, R182). -/
def execReadConfigSampleFormat (p : Port) (s : State) : Host.Outcome State Fault Refusal :=
  .next (readItem .sampleFormat p (fun _ s => itemReply .sampleFormat [s.level.sampleFormat.code]) s)

/-- READ_CONFIG_REPORT_SELECT (R181, R182). -/
def execReadConfigReportSelect (p : Port) (s : State) : Host.Outcome State Fault Refusal :=
  .next (readItem .reportSelect p (fun _ s => itemReply .reportSelect (natBytes 3 s.level.reportSelect.toNat)) s)

/-- READ_CONFIG_REPORT_THRESHOLD (R181, R182). -/
def execReadConfigReportThreshold (p : Port) (s : State) : Host.Outcome State Fault Refusal :=
  .next (readItem .reportThreshold p (fun _ s => itemReply .reportThreshold (natBytes 1 s.level.reportThreshold)) s)

/-- The DONE of a READ CONFIG of LATEST_RESULT for a pair (R115, R182). -/
def meterReply (c : Chan) (q : Quantity) (x : Meter) : Reply :=
  itemReply .latestResult
    (natBytes 1 c.val ++ natBytes 1 q.number ++ natBytes 2 x.acc.count ++ encodeLatest x.latest)

/-- READ CONFIG of LATEST_RESULT (R115). -/
def latestReply (params : List Byte) (s : State) : Reply :=
  match chanOf (fieldAt params 0 1) with
  | none => .refused .range .channel noNumber
  | some c =>
    match quantityOf (fieldAt params 1 1) with
    | none => .refused .range .quantity noNumber
    | some q => meterReply c q (s.level.meter c q)

/-- READ_CONFIG_LATEST_RESULT (R115, R182). -/
def execReadConfigLatestResult (p : Port) (s : State) : Host.Outcome State Fault Refusal :=
  .next (readItem .latestResult p latestReply s)

/-- LEVEL_MONITOR_INITIALIZE (R126); a word in progress goes on. -/
def execLevelMonitorInitialize (s : State) : Host.Outcome State Fault Refusal :=
  .next
    (takeInitNotice .levelMonitor
      (fun s => { s with level := { LevelMonitor.atReset with straddling := s.level.straddling } }) s)

end Sys2Proof.Machine
end

