-- ==== Sys2Proof/Machine/LinkOps.lean ====
section
/-!
DEFINITION. The Radio Control Link (chapter 6): demands, the queue, the write in flight.
-/

namespace Sys2Proof.Machine

/-- Whether the queue holds a record for a target. -/
def queued (t : Target) (q : List WriteRecord) : Bool := q.any fun r => decide (r.target = t)

/-- A queue with the value of the record of a target replaced in place (R100). -/
def replaceQueued (w : WriteRecord) (q : List WriteRecord) : List WriteRecord :=
  q.map fun r => if r.target = w.target then w else r

/-- A demand taken into the queue: replaced in place, or joined to the tail (R100). -/
def demandInto (q : List WriteRecord) (w : WriteRecord) : List WriteRecord :=
  if queued w.target q then replaceQueued w q else q ++ [w]

/-- The head started where no write is in flight (R101). -/
def Link.startHead (l : Link) : Link :=
  match l.inFlight, l.queue with
  | none, w :: q => ⟨q, some w⟩
  | _, _ => l

/-- The link after the demands of one sequencer event (R100). -/
def Link.demanded (ws : List WriteRecord) (l : Link) : Link :=
  Link.startHead { l with queue := ws.foldl demandInto l.queue }

/-- WRITE_DEMAND (R100): the link takes the next demands that reach it, which are those of this channel's sequencer; while
another sequencer's stand before them they have not reached it (R90, log entry 2). -/
def execWriteDemand (c : Chan) (s : State) : Host.Outcome State Fault Refusal :=
  .next <|
    match s.take Message.isDemands with
    | some (.demands c' ws, s') => if c' = c then { s' with link := s'.link.demanded ws } else s
    | _ => s

/-- The link after a completion (R102 steps 1 and 3). -/
def Link.completed (l : Link) : Link := Link.startHead { l with inFlight := none }

/-- LINK_WRITE_COMPLETE (R102): the write in flight completes and the next head starts. -/
def execLinkWriteComplete (s : State) : Host.Outcome State Fault Refusal :=
  .next <|
    match s.link.inFlight with
    | some w => State.send [.completion w] { s with link := s.link.completed }
    | none => s

end Sys2Proof.Machine
end

