-- ==== Sys2Proof/Machine/Licence.lean ====
section
/-!
DEFINITION. The Licence Store (chapter 2): the working table, programming, erasing, reading, the start-up load.
-/

namespace Sys2Proof.Machine

/-! ## The store -/

/-- The two in-flight states (R23). -/
def StoreState.inFlight : StoreState → Bool
  | .programming | .erasing => true
  | .blank | .protected_ | .incomplete => false

/-- The store after an operation or a load: its state, and the stored table with the check value recorded (R33). -/
def LicenceStore.record (st : StoreState) (table : LicenceTable) (l : LicenceStore) : LicenceStore :=
  { l with storeState := st, stored := table, checkValue := Config.checkValue table }

/-- The state with the Licence Store's state replaced. -/
def State.setLicence (l : LicenceStore) (s : State) : State := { s with licence := l }

/-! ## Requests (R24 to R28) -/

/-- Steps 1 to 3 of R24. -/
def licensing (p : Port) (f : State → Reply × State) (s : State) : Reply × State :=
  holderOnly p
    (fun s =>
      if s.mode.mode = .operate then (.wrongMode, s)
      else if s.licence.storeState.inFlight then (.refused .busy .storeInFlight noNumber, s)
      else f s) s

/-- Whether a frequency is 30,000 to 1,000,000 kHz (R21). -/
def licensable (freq : Nat) : Bool := decide (30000 ≤ freq) && decide (freq ≤ 1000000)

/-- Checks 6 and 7 of R25 on an input window. -/
def windowFault : Option Nat → Option Nat → Option Detail
  | some low, some high =>
    if !licensable low then some .rxLow
    else if !(licensable high && decide (low ≤ high)) then some .rxHigh
    else none
  | _, _ => none

/-- Checks 2 to 7 of R25 in order: the first field that fails. -/
def licenceFault (r : RawLicence) : Option Detail :=
  if !licensable r.txLow then some .txLow
  else if !(licensable r.txHigh && decide (r.txLow ≤ r.txHigh)) then some .txHigh
  else if 600 < r.gainCeiling then some .ceiling
  else if r.rxLow.isSome != r.rxHigh.isSome then some .rxWindow
  else windowFault r.rxLow r.rxHigh

/-- The input window of a record that passes check 5 (R21). -/
def inputWindow : Option Nat → Option Nat → Option InputWindow
  | some low, some high => some ⟨low, high⟩
  | _, _ => none

/-- The licence entry a record that passes the checks stores (R25). -/
def RawLicence.toEntry (r : RawLicence) : LicenceEntry := ⟨r.txLow, r.txHigh, r.gainCeiling, inputWindow r.rxLow r.rxHigh⟩

/-- The licence slot a number names. -/
def licenceSlotOf (n : Nat) : Option (Fin 16) := if h : n < 16 then some ⟨n, h⟩ else none

/-- A working slot written, or made empty (R25). -/
def writeWorking (i : Fin 16) (x : Option LicenceEntry) (s : State) : Reply × State :=
  (.done [], s.setLicence { s.licence with working := put s.licence.working i x })

/-- LICENCE ENTRY by steps 4 and 5 of R24 (R25). -/
def licenceEntry (slot : Nat) (record : Option RawLicence) (s : State) : Reply × State :=
  if s.licence.storeState ≠ .blank then (.refused .state .storeNotBlank noNumber, s)
  else match licenceSlotOf slot with
    | none => (.refused .range .slot noNumber, s)
    | some i =>
      match record with
      | none => writeWorking i none s
      | some r =>
        match licenceFault r with
        | some d => (.refused .range d (BitVec.ofNat 8 i.val), s)
        | none => writeWorking i (some r.toEntry) s

/-- LICENCE COMMIT by step 4 of R24 (R26). -/
def licenceCommit (s : State) : Reply × State :=
  if s.licence.storeState ≠ .blank then (.refused .state .storeNotBlank noNumber, s)
  else if s.licence.working = emptyLicence then (.refused .state .workingEmpty noNumber, s)
  else (.accepted, s.setLicence { s.licence with storeState := .programming })

/-- LICENCE ERASE that passed R24 (R28). -/
def licenceErase (s : State) : Reply × State := (.accepted, s.setLicence { s.licence with storeState := .erasing })

/-- LICENCE_ENTRY (R24, R25). -/
def execLicenceEntry (p : Port) (s : State) : Host.Outcome State Fault Refusal :=
  .next <|
    serve .licence p
      (fun body s =>
        match body with
        | .licenceEntry slot record => some (licensing p (licenceEntry slot record) s)
        | _ => none) s

/-- LICENCE_COMMIT (R24, R26). -/
def execLicenceCommit (p : Port) (s : State) : Host.Outcome State Fault Refusal :=
  .next (serveOnly .licence p .licenceCommit (licensing p licenceCommit) s)

/-- LICENCE_ERASE (R24, R28). -/
def execLicenceErase (p : Port) (s : State) : Host.Outcome State Fault Refusal :=
  .next (serveOnly .licence p .licenceErase (licensing p licenceErase) s)

/-! ## Reading (R31) -/

/-- The table a selector names: 0 STORED, 1 WORKING (R184). -/
def LicenceStore.table (l : LicenceStore) : Nat → Option LicenceTable
  | 0 => some l.stored
  | 1 => some l.working
  | _ => none

/-- READ LICENCE (R31). -/
def readLicenceReply (table slot : Nat) (s : State) : Reply :=
  match s.licence.table table with
  | none => .refused .range .table noNumber
  | some t =>
    match licenceSlotOf slot with
    | none => .refused .range .slot noNumber
    | some i =>
      if s.licence.storeState.inFlight then .refused .busy .storeInFlight noNumber
      else
        .done (natBytes 1 table ++ natBytes 1 slot ++ [s.licence.storeState.code] ++ encodeLicence (t.get i))

/-- READ_LICENCE (R31): any port, no state changed. -/
def execReadLicence (p : Port) (s : State) : Host.Outcome State Fault Refusal :=
  .next <|
    serve .licence p
      (fun body s =>
        match body with
        | .readLicence table slot => some (readLicenceReply table slot s, s)
        | _ => none) s

/-! ## Completions and the start-up load (R27, R29, R33) -/

/-- Whether an operation of the store is under way: neither a reset nor the load interrupts it (R32, log entry 17). -/
def State.operating (s : State) (st : StoreState) : Bool :=
  decide (s.phase = .running) && !s.licence.loading && decide (s.licence.storeState = st)

/-- The end of a programming whose read-back is this table (R27). -/
def State.completeProgramming (readBack : LicenceTable) (s : State) : State :=
  if readBack = s.licence.working then
    (s.setLicence (s.licence.record .protected_ s.licence.working)).report .licenceDone
  else (s.setLicence (s.licence.record .incomplete emptyLicence)).report .licenceFailed

/-- PROGRAMMING_COMPLETION (R27): the operand is what the stored table reads back (log entry 16). -/
def execProgrammingCompletion (readBack : LicenceTable) (s : State) : Host.Outcome State Fault Refusal :=
  .next (if s.operating .programming then s.completeProgramming readBack else s)

/-- The end of an erasure (R29). -/
def State.completeErase (s : State) : State :=
  (s.setLicence (s.licence.record .blank emptyLicence)).report .licenceDone

/-- ERASE_COMPLETION (R29). -/
def execEraseCompletion (s : State) : Host.Outcome State Fault Refusal :=
  .next (if s.operating .erasing then s.completeErase else s)

/-- The store state after the load, from the recorded state and the table read (R33). -/
def LicenceStore.loaded (l : LicenceStore) (read : LicenceTable) : StoreState :=
  match l.storeState with
  | .blank => .blank
  | .protected_ => if Config.checkValue read = l.checkValue then .protected_ else .incomplete
  | .incomplete | .erasing | .programming => .incomplete

/-- The stored table after the load (R33). -/
def LicenceStore.loadedTable (l : LicenceStore) (read : LicenceTable) : LicenceTable :=
  if l.loaded read = .protected_ then read else emptyLicence

/-- The end of the start-up load that read this table (R33). -/
def State.endLoad (read : LicenceTable) (s : State) : State :=
  let s' := s.setLicence
    { s.licence with storeState := s.licence.loaded read, stored := s.licence.loadedTable read, loading := false }
  if s.licence.loaded read = .incomplete then s'.report .licenceFailed else s'

/-- START_UP_LOAD_END (R33): the operand is the table read from the non-volatile memory (log entry 16). -/
def execStartUpLoadEnd (read : LicenceTable) (s : State) : Host.Outcome State Fault Refusal :=
  .next (if s.phase = .running ∧ s.licence.loading then s.endLoad read else s)

end Sys2Proof.Machine
end

