-- ==== Sys2Proof/Machine/Mode.lean ====
section
/-!
DEFINITION. Mode Control (chapter 8, R127 to R135): entering OPERATE, entering STANDBY, INITIALIZE.
-/

namespace Sys2Proof.Machine

/-! ## Entering OPERATE (R128, R129) -/

/-- Whether a line stands against OPERATE (R128 test 7). -/
def State.standbyLine (s : State) (n : Line) : Bool :=
  decide ((s.lines.get n).config.action = .standby)
    && ((s.lines.get n).asserted || (s.conditions.slots.get (lineSlot n)).latched)

/-- Tests 3 to 8 of R128 in order: the first refusal that applies. -/
def State.operateRefusal (s : State) : Option Reply :=
  if s.mode.mode = .operate then some .wrongMode
  else if s.mode.awaited ≠ [] then some (.refused .busy .initializing noNumber)
  else if s.licence.storeState.inFlight then some (.refused .busy .storeInFlight noNumber)
  else if s.licence.storeState ≠ .protected_ then some (.refused .mode .storeNotProtected noNumber)
  else match lowestChan s.standbyLine with
    | some n => some (.refused .faultPresent .lineStandby (BitVec.ofNat 8 (lineSlot n).val))
    | none => s.validate s.plan.active

/-- The entry into OPERATE (R129). -/
def State.enterOperate (s : State) : State :=
  State.send ((List.finRange 8).map .siteStart) { s with mode := { s.mode with mode := .operate } }

/-- SET MODE (OPERATE) from the holder by tests 3 to 8 (R128, R129). -/
def setOperate (s : State) : Reply × State :=
  match s.operateRefusal with
  | some r => (r, s)
  | none => (.done [], s.enterOperate)

/-- Whether a SET MODE (OPERATE) that would enter OPERATE still waits: R129 enters with no sequencer in ON_AIR or
FOLDBACK, so the entry is not due before each of those has taken its site stop of the STANDBY between (log entry 31). -/
def State.entryWaits (s : State) (p : Port) : Bool := s.isHolder p && s.operateRefusal.isNone && s.carrierAsked

/-! ## Entering STANDBY (R130 to R132) -/

/-- What an entry into STANDBY sends: STANDBY_ENTERED, eight site stops, the standby notice (R132). -/
def standbyMessages : List Message :=
  .occurrence SiteKind.standbyEntered.slot :: (List.finRange 8).map .siteStop ++ [.standbyNotice]

/-- The entry into STANDBY with a cause (R132). -/
def State.enterStandby (cause : StandbyCause) (s : State) : State :=
  State.send standbyMessages { s with mode := { s.mode with mode := .standby, cause := cause } }

/-- A way into STANDBY: entered in OPERATE, no change in STANDBY (R130, R131). -/
def State.goStandby (cause : StandbyCause) (s : State) : State :=
  match s.mode.mode with
  | .operate => s.enterStandby cause
  | .standby => s

/-- A selector naming neither mode (R128 test 2). -/
def Reply.badMode : Reply := .refused .range .mode noNumber

/-- SET_MODE_OPERATE (R128, R129): a SET MODE whose selector is not STANDBY (log entry 21). -/
def execSetModeOperate (p : Port) (s : State) : Host.Outcome State Fault Refusal :=
  .next <|
    serve .mode p
      (fun body s =>
        match body with
        | .setMode 0 => none
        | .setMode 1 => if s.entryWaits p then none else some (holderOnly p setOperate s)
        | .setMode _ => some (holderOnly p (fun s => (.badMode, s)) s)
        | _ => none) s

/-- SET_MODE_STANDBY (R130): a SET MODE whose selector is not OPERATE (log entry 21). -/
def execSetModeStandby (p : Port) (s : State) : Host.Outcome State Fault Refusal :=
  .next <|
    serve .mode p
      (fun body s =>
        match body with
        | .setMode 0 => some (holderOnly p (fun s => (.done [], s.goStandby (.request p))) s)
        | .setMode 1 => none
        | .setMode _ => some (holderOnly p (fun s => (.badMode, s)) s)
        | _ => none) s

/-- SITE_STANDBY (R130): any port, addressed or broadcast; a broadcast is not answered (R172). -/
def execSiteStandby (p : Port) (s : State) : Host.Outcome State Fault Refusal :=
  .next (serveOnly .mode p .siteStandby (fun s => (.done [], s.goStandby (.emergency p))) s)

/-- FAULT_STANDBY (R131): Mode Control takes a line's fault standby. -/
def execFaultStandby (n : Line) (s : State) : Host.Outcome State Fault Refusal :=
  .next <|
    match s.take (Message.isFaultStandby n) with
    | some (_, s') => s'.goStandby (.faultLine n)
    | none => s

/-! ## INITIALIZE (R134) -/

/-- The five blocks an INITIALIZE reaches (R134). -/
def initBlocks : List InitBlock := [.planController, .sequencerBlock, .levelMonitor, .faultLineMonitor, .conditionTable]

/-- INITIALIZE from the holder, in the order of R134. -/
def initializeAll (s : State) : Reply × State :=
  if s.mode.mode = .operate then (.wrongMode, s)
  else if s.mode.awaited ≠ [] then (.refused .busy .initializing noNumber, s)
  else
    (.done [],
      State.send (initBlocks.map .initNotice) { s with mode := { s.mode with awaited := initBlocks } })

/-- INITIALIZE (R134). -/
def execInitializeSite (p : Port) (s : State) : Host.Outcome State Fault Refusal :=
  .next (serveOnly .mode p .initializeSite (holderOnly p initializeAll) s)

/-- INITIALIZE_NOTICE_REPORT (R134): the mark clears at the last of the five reports (log entry 28). -/
def execInitializeNoticeReport (b : InitBlock) (s : State) : Host.Outcome State Fault Refusal :=
  .next <|
    match s.take (Message.isInitReport b) with
    | some (_, s') => { s' with mode := { s'.mode with awaited := s'.mode.awaited.filter fun x => decide (x ≠ b) } }
    | none => s

end Sys2Proof.Machine
end

