-- ==== Sys2Proof/Machine/Params.lean ====
section
/-!
DEFINITION. The Channel Sequencer block's six site-wide parameters (R70, R97), and the Epoch Timebase's commands
(chapter 3).
-/

namespace Sys2Proof.Machine

/-! ## The sequencer parameters (R70) -/

/-- A CONFIGURE of a sequencer parameter from the holder: the parameters as set, or none out of range (R70). -/
def setParams (i : Item) (value : List Byte) (set : Option SequencerParams) (s : State) : Reply × State :=
  match set with
  | none => (.badValue, s)
  | some k => (itemReply i value, { s with params := k })

/-- A CONFIGURE of a sequencer parameter (R70): role, then range. -/
def configureParams (i : Item) (p : Port) (set : SequencerParams → List Byte → Option SequencerParams) (s : State) :
    State :=
  configureItem i p (fun value => holderOnly p fun s => setParams i value (set s.params value) s) s

/-- A value within a range of R70. -/
def within (low high : Nat) (value : List Byte) (k : Nat → SequencerParams) : Option SequencerParams :=
  if low ≤ beNat value ∧ beNat value ≤ high then some (k (beNat value)) else none

/-- CONFIGURE_TUNE_LIMIT (R70): 1 to 255. -/
def execConfigureTuneLimit (p : Port) (s : State) : Host.Outcome State Fault Refusal :=
  .next (configureParams .tuneLimit p (fun k v => within 1 255 v fun n => { k with tuneLimit := n }) s)

/-- CONFIGURE_SETTLE_EPOCHS (R70): 0 to 255. -/
def execConfigureSettleEpochs (p : Port) (s : State) : Host.Outcome State Fault Refusal :=
  .next (configureParams .settleEpochs p (fun k v => within 0 255 v fun n => { k with settleEpochs := n }) s)

/-- CONFIGURE_FOLDBACK_STEP (R70): 5 to 60. -/
def execConfigureFoldbackStep (p : Port) (s : State) : Host.Outcome State Fault Refusal :=
  .next (configureParams .foldbackStep p (fun k v => within 5 60 v fun n => { k with foldbackStep := n }) s)

/-- CONFIGURE_RECOVER_WINDOWS (R70): 1 to 64. -/
def execConfigureRecoverWindows (p : Port) (s : State) : Host.Outcome State Fault Refusal :=
  .next (configureParams .recoverWindows p (fun k v => within 1 64 v fun n => { k with recoverWindows := n }) s)

/-- CONFIGURE_REFL_LIMIT (R70): any level. -/
def execConfigureReflLimit (p : Port) (s : State) : Host.Outcome State Fault Refusal :=
  .next (configureParams .reflLimit p (fun k v => some { k with reflLimit := levelOfNat (beNat v) }) s)

/-- CONFIGURE_CARRIER_FLOOR (R70): any level. -/
def execConfigureCarrierFloor (p : Port) (s : State) : Host.Outcome State Fault Refusal :=
  .next (configureParams .carrierFloor p (fun k v => some { k with carrierFloor := levelOfNat (beNat v) }) s)

/-- READ_CONFIG_TUNE_LIMIT (R70). -/
def execReadConfigTuneLimit (p : Port) (s : State) : Host.Outcome State Fault Refusal :=
  .next (readItem .tuneLimit p (fun _ s => itemReply .tuneLimit (natBytes 1 s.params.tuneLimit)) s)

/-- READ_CONFIG_SETTLE_EPOCHS (R70). -/
def execReadConfigSettleEpochs (p : Port) (s : State) : Host.Outcome State Fault Refusal :=
  .next (readItem .settleEpochs p (fun _ s => itemReply .settleEpochs (natBytes 1 s.params.settleEpochs)) s)

/-- READ_CONFIG_FOLDBACK_STEP (R70). -/
def execReadConfigFoldbackStep (p : Port) (s : State) : Host.Outcome State Fault Refusal :=
  .next (readItem .foldbackStep p (fun _ s => itemReply .foldbackStep (natBytes 1 s.params.foldbackStep)) s)

/-- READ_CONFIG_RECOVER_WINDOWS (R70). -/
def execReadConfigRecoverWindows (p : Port) (s : State) : Host.Outcome State Fault Refusal :=
  .next (readItem .recoverWindows p (fun _ s => itemReply .recoverWindows (natBytes 1 s.params.recoverWindows)) s)

/-- READ_CONFIG_REFL_LIMIT (R70). -/
def execReadConfigReflLimit (p : Port) (s : State) : Host.Outcome State Fault Refusal :=
  .next (readItem .reflLimit p (fun _ s => itemReply .reflLimit (levelBytes s.params.reflLimit)) s)

/-- READ_CONFIG_CARRIER_FLOOR (R70). -/
def execReadConfigCarrierFloor (p : Port) (s : State) : Host.Outcome State Fault Refusal :=
  .next (readItem .carrierFloor p (fun _ s => itemReply .carrierFloor (levelBytes s.params.carrierFloor)) s)

/-- SEQUENCER_PARAMETERS_INITIALIZE (R97). -/
def execSequencerParametersInitialize (s : State) : Host.Outcome State Fault Refusal :=
  .next (takeInitNotice .sequencerBlock (fun s => { s with params := SequencerParams.default }) s)

/-! ## The Epoch Timebase (R40, R43, R45) -/

/-- EPOCH_END (R40): the last unit of the epoch passes, the position reaches the period and the epoch ends; at any other
position (log entry 5) and while the start-up load runs (R46, log entry 34) the epoch does not end. -/
def execEpochEnd (s : State) : Host.Outcome State Fault Refusal :=
  .next (whenRunning (fun s => if s.timebase.period ≤ s.timebase.position + 1 then s.lastUnitPasses else s) s)

/-- Whether a prescale is one of the seven of R39. -/
def prescaleFits (n : Nat) : Bool := [1, 2, 4, 8, 16, 32, 64].contains n

/-- The bytes of PRESCALE, MODULO and the epoch counter (R43, R182). -/
def Timebase.bytes (t : Timebase) : List Byte := natBytes 1 t.prescale ++ natBytes 2 t.modulo ++ natBytes 2 t.counter.toNat

/-- SET EPOCH from the holder, in the order of R43. -/
def setEpochPeriod (prescale modulo : Nat) (s : State) : Reply × State :=
  if !prescaleFits prescale then (.refused .range .prescale noNumber, s)
  else if ¬(10 ≤ modulo ∧ modulo ≤ 65535) then (.refused .range .modulo noNumber, s)
  else
    (.done (Timebase.bytes ⟨prescale, modulo, 0, s.timebase.counter⟩),
      { s with timebase := ⟨prescale, modulo, 0, s.timebase.counter⟩ })

/-- SET_EPOCH (R43). -/
def execSetEpoch (p : Port) (s : State) : Host.Outcome State Fault Refusal :=
  .next <|
    serve .timebase p
      (fun body s =>
        match body with
        | .setEpoch prescale modulo => some (holderOnly p (setEpochPeriod prescale modulo) s)
        | _ => none) s

/-- READ_CONFIG_EPOCH_PERIOD (R45, R182). -/
def execReadConfigEpochPeriod (p : Port) (s : State) : Host.Outcome State Fault Refusal :=
  .next (readItem .epochPeriod p (fun _ s => itemReply .epochPeriod s.timebase.bytes) s)

/-- CONFIGURE_EPOCH_PERIOD (R45, R182): refused. -/
def execConfigureEpochPeriod (p : Port) (s : State) : Host.Outcome State Fault Refusal :=
  .next <|
    configureItem .epochPeriod p
      (fun _ => holderOnly p fun s => (.refused .range .prescale noNumber, s)) s

end Sys2Proof.Machine
end

