-- ==== Sys2Proof/Machine/Ports.lean ====
section
/-!
DEFINITION. The Port Interfaces (chapter 11): receiving frames, judging and taking requests, IDENTIFY and READ STATUS,
the response slots and the Port S transmitter.
-/

namespace Sys2Proof.Machine

/-! ## Receiving (R173, R175) -/

/-- What the next byte makes of a frame being collected. -/
inductive Collected where
  | more (got : List Byte)
  | tooLong
  | complete (frame : List Byte)
  deriving DecidableEq, Repr

/-- A frame with one more byte: complete at its check byte, position 4 + L; given up at a length byte above 60. -/
def collect (got : List Byte) (b : Byte) : Collected :=
  if got.length = 3 ∧ Config.maxPayload < b.toNat then .tooLong
  else if wholeFrame (got ++ [b]) then .complete (got ++ [b])
  else .more (got ++ [b])

/-- A READ transfer byte: the slot's frame, or EMPTY_SLOT, is taken and the slot emptied (R173, R174). -/
def SyncInterface.takeSlot (address : BitVec 4) (i : SyncInterface) : SyncInterface :=
  ⟨.read (i.slot.getD (emptySlotFrame address)), none⟩

/-- The transfer byte that opens a select period: 0x01 WRITE, 0x02 READ, any other ignored (R173). -/
def SyncInterface.openPeriod (address : BitVec 4) (b : Byte) (i : SyncInterface) : SyncInterface :=
  if b = 0x01 then { i with period := .write [] }
  else if b = 0x02 then i.takeSlot address
  else { i with period := .ignored }

/-- The byte that SDO carries while the next byte is clocked in (R173): under a READ the next byte of its frame, and 0x00
beyond its end; 0x00 throughout a WRITE and after any other transfer byte. 0x00 too, where the manual gives no byte, while
the transfer byte itself comes, with no period open, and in a period that straddles the end of a reset, of which R183 says
only that the transaction is ignored (DEDUCED, log entry 11). -/
def SyncInterface.sdo (i : SyncInterface) : Byte :=
  match i.period with
  | .read rest => rest.headD 0
  | .closed | .write _ | .ignored => 0

/-- A byte clocked in on Port A or B: the interface after it and the frame it completes; under a READ the byte is ignored
and one byte of the frame has been clocked out (R173). -/
def SyncInterface.byte (address : BitVec 4) (b : Byte) (i : SyncInterface) : SyncInterface × Option (List Byte) :=
  match i.period with
  | .closed => (i.openPeriod address b, none)
  | .write got =>
    match collect got b with
    | .more got' => ({ i with period := .write got' }, none)
    | .tooLong => ({ i with period := .ignored }, none)
    | .complete f => ({ i with period := .ignored }, some f)
  | .read rest => ({ i with period := .read rest.tail }, none)
  | .ignored => (i, none)

/-- A character in a frame on Port S (R175). -/
def collectS (got : List Byte) (b : Byte) : ReceiverS × Option (List Byte) :=
  match collect got b with
  | .more got' => (.inFrame got', none)
  | .tooLong => (.waitingIdle, none)
  | .complete f => (.waitingIdle, some f)

/-- A character received on Port S: the receiver after it and the frame it completes (R175). -/
def ReceiverS.byte (b : Byte) : ReceiverS → ReceiverS × Option (List Byte)
  | .waitingIdle => (.waitingIdle, none)
  | .ready => collectS [] b
  | .inFrame got => collectS got b

/-- A byte received on a port. -/
def PortInterfaces.byte (p : Port) (b : Byte) (i : PortInterfaces) : PortInterfaces × Option (List Byte) :=
  match p with
  | .a => let x := i.a.byte i.unitAddress b; ({ i with a := x.1 }, x.2)
  | .b => let x := i.b.byte i.unitAddress b; ({ i with b := x.1 }, x.2)
  | .s => let x := i.s.receiver.byte b; ({ i with s := { i.s with receiver := x.1 } }, x.2)

/-- Bytes received on a port up to the first frame they complete; bytes after a check byte are ignored (R173, R175). -/
def PortInterfaces.bytes (p : Port) : PortInterfaces → List Byte → PortInterfaces × Option (List Byte)
  | i, [] => (i, none)
  | i, b :: bs =>
    match i.byte p b with
    | (i', none) => PortInterfaces.bytes p i' bs
    | (i', some f) => (i', some f)

/-! ## Judging (R171) -/

/-- The outcome of the judgement of a frame (R171). -/
inductive Judged where
  | discarded | addressed | broadcast
  deriving DecidableEq, Repr

/-- Byte k of a frame. -/
def frameByte (f : List Byte) (k : Nat) : Byte := f.getD k 0

/-- The payload of a complete frame (R184). -/
def framePayload (f : List Byte) : List Byte := (f.drop 4).dropLast

/-- Whether the unit address of a header is this unit's, or the broadcast of Port S (R171). -/
def judgeAddress (address : BitVec 4) (p : Port) (a : BitVec 4) : Judged :=
  if a = 15 then if p = .s then .broadcast else .discarded
  else if a = address then .addressed
  else .discarded

/-- A complete frame judged (R171). -/
def judgeFrame (address : BitVec 4) (p : Port) (f : List Byte) : Judged :=
  if wholeFrame f ∧ crc8 f.dropLast = f.getLastD 0 ∧ (frameByte f 0).extractLsb' 0 4 = 0 then
    judgeAddress address p ((frameByte f 0).extractLsb' 4 4)
  else .discarded

/-! ## IDENTIFY and READ STATUS (R179, R180) -/

/-- The five bytes of IDENTIFY (R179). -/
def identifyBytes (address : BitVec 4) (p : Port) : List Byte :=
  natBytes 2 Config.partCode.toNat ++ [Config.siliconRevision, address.setWidth 8, portCode p]

/-- The four bytes of the pending activation in READ STATUS (R180); the target of no record is sent as 0 (R184). -/
def pendingBytes : Option PendingActivation → List Byte
  | none => [0, 0, 0, noNumber]
  | some x => [1] ++ natBytes 2 x.target.toNat ++ [BitVec.ofNat 8 (x.overdue.getD 255)]

/-- The 18 bytes of READ STATUS (R180). -/
def State.statusBytes (s : State) : List Byte :=
  [s.mode.mode.code] ++ s.mode.cause.bytes
    ++ [portCodeOr s.authority.holder, portCodeOr s.authority.reserve]
    ++ pendingBytes s.plan.pendingActivation
    ++ [boolByte s.ready, s.licence.storeState.code]
    ++ natBytes 2 s.timebase.counter.toNat ++ natBytes 2 s.plan.number.toNat ++ natBytes 2 s.plan.revision.toNat
    ++ natBytes 1 s.level.reports.length

/-! ## Taking (R172) -/

/-- What steps 3 to 5 of R172 do with a request (R172, R182). -/
def State.dispatch (p : Port) (tag : Byte) (x : Parsed) (s : State) : State :=
  match x with
  | .unknown => s.answer p (some tag) .unknownRequest
  | .malformed => s.answer p (some tag) .malformed
  | .badItem => s.answer p (some tag) (.refused .range .item noNumber)
  | .identify => s.answer p (some tag) (.done (identifyBytes s.ports.unitAddress p))
  | .readStatus => s.answer p (some tag) (.done s.statusBytes)
  | .request o body => s.send [.request o p (some tag) body]

/-- What a complete frame spells (R178, R182). -/
def parseFrame (f : List Byte) : Parsed := parseRequest (frameByte f 2) (framePayload f)

/-- An addressed frame taken (R172, R34). -/
def State.takeAddressed (p : Port) (f : List Byte) (s : State) : State :=
  if s.licence.loading then s.answer p (some (frameByte f 1)) (.refused .busy .startUpLoad noNumber)
  else s.dispatch p (frameByte f 1) (parseFrame f)

/-- A broadcast frame taken: SITE STANDBY alone, not during the load, and never answered (R172, R34). -/
def State.takeBroadcast (f : List Byte) (s : State) : State :=
  if !s.licence.loading && decide (frameByte f 2 = 0x31) && (framePayload f).isEmpty then
    s.send [.request .mode .s none .siteStandby]
  else s

/-- A complete frame judged and taken at one event (R171, R172). -/
def State.takeFrame (p : Port) (f : List Byte) (s : State) : State :=
  match judgeFrame s.ports.unitAddress p f with
  | .discarded => s
  | .addressed => s.takeAddressed p f
  | .broadcast => s.takeBroadcast f

/-- The state with the Port Interfaces replaced. -/
def State.setPorts (i : PortInterfaces) (s : State) : State := { s with ports := i }

/-- Bytes received on a port, and the frame they complete taken. -/
def State.receive (p : Port) (bytes : List Byte) (s : State) : State :=
  match s.ports.bytes p bytes with
  | (i, none) => s.setPorts i
  | (i, some f) => (s.setPorts i).takeFrame p f

/-- REQUEST_FRAME_COMPLETE (R171 to R173, R175): bytes arrive on a port (log entry 7). -/
def execRequestFrameComplete (p : Port) (bytes : List Byte) (s : State) : Host.Outcome State Fault Refusal :=
  .next (whenRunning (State.receive p bytes) s)

/-- Whether bytes received on a port complete a frame that is taken as this. -/
def State.completes (s : State) (p : Port) (bytes : List Byte) (x : Parsed) : Bool :=
  match (s.ports.bytes p bytes).2 with
  | none => false
  | some f =>
    decide (judgeFrame s.ports.unitAddress p f = .addressed) && !s.licence.loading && decide (parseFrame f = x)

/-- IDENTIFY (R179): the arrival of bytes that complete an IDENTIFY, carried out at that event (R172, log entry 4). -/
def execIdentify (p : Port) (bytes : List Byte) (s : State) : Host.Outcome State Fault Refusal :=
  .next (if s.completes p bytes .identify then whenRunning (State.receive p bytes) s else s)

/-- READ_STATUS (R180): the arrival of bytes that complete a READ STATUS, carried out at that event (R172, log entry 4). -/
def execReadStatus (p : Port) (bytes : List Byte) (s : State) : Host.Outcome State Fault Refusal :=
  .next (if s.completes p bytes .readStatus then whenRunning (State.receive p bytes) s else s)

/-! ## Ports A and B (R173, R174) -/

/-- The interface of Port A or B. -/
def PortInterfaces.sync (i : PortInterfaces) : SyncPort → SyncInterface
  | .a => i.a | .b => i.b

/-- The Port Interfaces with that of Port A or B replaced. -/
def PortInterfaces.setSync (i : PortInterfaces) (p : SyncPort) (x : SyncInterface) : PortInterfaces :=
  match p with
  | .a => { i with a := x } | .b => { i with b := x }

/-- PORT_READ_TRANSFER (R173, R174): a READ transfer byte opens a select period. -/
def execPortReadTransfer (p : SyncPort) (s : State) : Host.Outcome State Fault Refusal :=
  .next <|
    whenRunning
      (fun s =>
        if (s.ports.sync p).period = .closed then
          s.setPorts (s.ports.setSync p ((s.ports.sync p).takeSlot s.ports.unitAddress))
        else s) s

/-- SELECT_PERIOD_END (R173): SELA or SELB deasserts; a frame without its check byte is discarded. -/
def execSelectPeriodEnd (p : SyncPort) (s : State) : Host.Outcome State Fault Refusal :=
  .next (whenRunning (fun s => s.setPorts (s.ports.setSync p { s.ports.sync p with period := .closed })) s)

/-- The bytes collected of a frame being received on a port, none where no frame is. -/
def PortInterfaces.collected (i : PortInterfaces) : Port → Option (List Byte)
  | .a => match i.a.period with | .write got => some got | _ => none
  | .b => match i.b.period with | .write got => some got | _ => none
  | .s => match i.s.receiver with | .inFrame got => some got | _ => none

/-- LENGTH_BYTE_ABOVE_60 (R171, R173, R175): the length byte of a frame arrives and exceeds 60. -/
def execLengthByteAbove60 (p : Port) (length : Byte) (s : State) : Host.Outcome State Fault Refusal :=
  .next <|
    if (s.ports.collected p).map List.length = some 3 ∧ Config.maxPayload < length.toNat then
      whenRunning (State.receive p [length]) s
    else s

/-! ## Port S (R175, R176) -/

/-- The Port Interfaces with the Port S receiver replaced. -/
def State.setReceiver (x : ReceiverS) (s : State) : State :=
  s.setPorts { s.ports with s := { s.ports.s with receiver := x } }

/-- PORT_S_IDLE_DETECT (R175): three character times of idle; a frame in progress is discarded (log entry 8). -/
def execPortSIdleDetect (s : State) : Host.Outcome State Fault Refusal :=
  .next (whenRunning (State.setReceiver .ready) s)

/-- PORT_S_FRAMING_ERROR (R175): a character whose stop bit reads 0 discards the frame (log entry 9). -/
def execPortSFramingError (s : State) : Host.Outcome State Fault Refusal :=
  .next (whenRunning (State.setReceiver .waitingIdle) s)

/-- The Port Interfaces with the Port S transmitter replaced. -/
def State.setTransmitter (t : Option Transmission) (waiting : Option (List Byte)) (s : State) : State :=
  s.setPorts { s.ports with s := { s.ports.s with transmitting := t, waiting := waiting } }

/-- RESPONSE_TRANSMISSION_START (R176): the response in transmission begins on STXD (log entry 10). -/
def execResponseTransmissionStart (s : State) : Host.Outcome State Fault Refusal :=
  .next <|
    whenRunning
      (fun s =>
        match s.ports.s.transmitting with
        | some t => s.setTransmitter (some { t with started := true }) s.ports.s.waiting
        | none => s) s

/-- RESPONSE_TRANSMISSION_END (R176): the frame ends and a waiting response takes its place. -/
def execResponseTransmissionEnd (s : State) : Host.Outcome State Fault Refusal :=
  .next <|
    whenRunning
      (fun s =>
        if (s.ports.s.transmitting.map Transmission.started) = some true then
          s.setTransmitter (s.ports.s.waiting.map fun f => ⟨f, false⟩) none
        else s) s

end Sys2Proof.Machine
end

