-- ==== Sys2Proof/Machine/ResetEvents.lean ====
section
/-!
DEFINITION. Hardware reset, its end, and loss of supply (R19, R32, R33, R38, R46, R96, R107, R125, R135, R142, R156,
R169, R183).
-/

namespace Sys2Proof.Machine

/-- The Licence Store when reset or supply interrupts it: the non-volatile memory kept, the working table empty,
no load under way (R22, R32, R33, R38). -/
def LicenceStore.interrupted (l : LicenceStore) : LicenceStore := { l with working := emptyLicence, loading := false }

/-- The part with every block at its reset values and the non-volatile memory kept; the straps keep their sampled
values and the lines their pin levels until the end of the reset samples them anew. -/
def State.resetValues (phase : Phase) (s : State) : State :=
  { State.reset with
    pending := s.pending
    phase := phase
    licence := s.licence.interrupted
    channels := Vector.ofFn fun c => Channel.atReset (s.channels.get c).lockRx (s.channels.get c).lockTx
    link := ⟨resetWrites, none⟩
    lines := Vector.ofFn fun n => FaultLine.atReset (s.lines.get n).pinHigh
    ports := PortInterfaces.atReset s.ports.unitAddress s.ports.baud }

/-- HARDWARE_RESET (R32, R107, R135): power-on or the assertion of RESETN; every block takes its reset values and the
messages between blocks are lost (R183, log entry 2). -/
def execHardwareReset (s : State) : Host.Outcome State Fault Refusal := .next (s.resetValues .inReset)

/-- LOSS_OF_SUPPLY (R32): volatile state is lost; the record of an operation in flight stays (log entry 15). -/
def execLossOfSupply (s : State) : Host.Outcome State Fault Refusal := .next (s.resetValues .unpowered)

/-- The select period of Port A or B at the end of a reset: one that straddles it is ignored (R183). -/
def periodAtEnd (asserted : Bool) : SelectPeriod := if asserted then .ignored else .closed

/-- The Port Interfaces at the end of a reset (R171, R175, R183). -/
def PortInterfaces.sampled (pins : PinSample) : PortInterfaces where
  a := ⟨periodAtEnd pins.selA, none⟩
  b := ⟨periodAtEnd pins.selB, none⟩
  s := ⟨.waitingIdle, none, none⟩
  unitAddress := pins.unitAddress
  baud := pins.baud

/-- A channel's record with its lock levels sampled (R96). -/
def Channel.sampleLocks (rx tx : Bool) (r : Channel) : Channel := { r with lockRx := rx, lockTx := tx }

/-- The end of a hardware reset: the load and the first epoch begin, the first reset write starts, filtering begins,
the pins are sampled, and a word in progress on the Sample Port straddles the end (R33, R46, R96, R101, R107, R125,
R142, R171). -/
def State.endReset (pins : PinSample) (s : State) : State :=
  { s with
    phase := .running
    licence := { s.licence with loading := true }
    channels := Vector.ofFn fun c => (s.channels.get c).sampleLocks (pins.lockRx.get c) (pins.lockTx.get c)
    link := s.link.startHead
    level := { s.level with straddling := pins.sampleFrame }
    lines := Vector.ofFn fun n => { s.lines.get n with pinHigh := pins.faultHigh.get n }
    ports := PortInterfaces.sampled pins }

/-- END_OF_HARDWARE_RESET (R33, R107): due while the part is held in reset (log entries 13 and 14). -/
def execEndOfHardwareReset (pins : PinSample) (s : State) : Host.Outcome State Fault Refusal :=
  .next (if s.phase = .inReset then s.endReset pins else s)

end Sys2Proof.Machine
end

