-- ==== Sys2Proof/Machine/Sequencer.lean ====
section
/-!
DEFINITION. The Channel Sequencers (chapter 5): what each event does to the channel record, and what it sends.
-/

namespace Sys2Proof.Machine

/-! ## What one sequencer event does -/

/-- The outcome of one event at a sequencer: the record after it (its gain demand not yet formed), whether it demands
both tune words (R72), whether the channel entered OFF (R89), and what it reports, in order. -/
structure SeqOutcome where
  record : Channel
  retunes : Bool := false
  wentOff : Bool := false
  reported : List ChannelKind := []
  deriving DecidableEq, Repr

/-- An event that only changes the record. -/
def Channel.only (r : Channel) : SeqOutcome := { record := r }

/-- The outcome with one more report. -/
def SeqOutcome.reporting (o : SeqOutcome) (k : ChannelKind) : SeqOutcome := { o with reported := o.reported ++ [k] }

/-- The gain word max(G - F, 0) (R68, R71). -/
def Channel.gainWord (r : Channel) : Nat := r.gain - r.fold

/-- Whether an event that left the record r, from the record old, demands a gain word (R71). -/
def gainDue (old r : Channel) : Bool :=
  (decide (r.gain ≠ old.gain) || decide (r.fold ≠ old.fold)) && decide (r.gainWord ≠ r.demandedGain)

/-- The write demands of an event, in the order of R71. -/
def SeqOutcome.writes (c : Chan) (old : Channel) (o : SeqOutcome) : List WriteRecord :=
  (if gainDue old o.record then [⟨⟨c, .gain⟩, o.record.gainWord⟩] else [])
    ++ (if o.retunes then [⟨⟨c, .rxSyn⟩, o.record.demandedRx⟩, ⟨⟨c, .txSyn⟩, o.record.demandedTx⟩] else [])

/-- The record after an event, the gain demand formed (R71). -/
def SeqOutcome.final (old : Channel) (o : SeqOutcome) : Channel :=
  if gainDue old o.record then { o.record with demandedGain := o.record.gainWord } else o.record

/-- The messages of an event: its demands as one message, its OFF notice, its occurrences. -/
def SeqOutcome.messages (c : Chan) (old : Channel) (o : SeqOutcome) : List Message :=
  (if (o.writes c old).isEmpty then [] else [.demands c (o.writes c old)])
    ++ (if o.wentOff then [.offNotice c] else []) ++ o.reported.map fun k => .occurrence (k.slot c)

/-- The state after an event at channel c's sequencer with this outcome. -/
def State.commit (c : Chan) (o : SeqOutcome) (s : State) : State :=
  State.send (o.messages c (s.channels.get c)) (s.setChannel c (o.final (s.channels.get c)))

/-! ## Entering states -/

/-- The counts and flags that hold their values outside their stages in TUNING at WRITING, OFF and SHUTDOWN (R68). -/
def Channel.cleared (r : Channel) : Channel :=
  { r with
    tuneCount := 0, blankingCount := 0, settleCount := 0, gain := 0, fold := 0, belowCount := 0, recoverCount := 0
    freshRx := false, settlingMean := none, rxWritten := false, txWritten := false }

/-- Entering TUNING at WRITING: the tune words are formed with RASTER and demanded (R72, R74). -/
def Channel.enterTuning (raster : Nat) (r : Channel) : SeqOutcome :=
  { record :=
      { r.cleared with
        state := .tuning, subPhase := some .writing
        demandedRx := r.entry.rxFreq / raster, demandedTx := r.entry.txFreq / raster }
    retunes := true }

/-- Entering OFF: park words demanded, an OFF notice sent (R72, R89). -/
def Channel.enterOff (r : Channel) : SeqOutcome :=
  { record := { r.cleared with state := .off, subPhase := none, demandedRx := 0, demandedTx := 0 }
    retunes := true
    wentOff := true }

/-- Entering SHUTDOWN: no tune word demanded (R86). -/
def Channel.enterShutdown (r : Channel) : SeqOutcome :=
  Channel.only { r.cleared with state := .shutdown, subPhase := none }

/-- Lock loss (R77): back to WAITING_LOCK on the words already written. -/
def Channel.loseLock (r : Channel) : SeqOutcome :=
  (Channel.only
    { r.cleared with state := .tuning, subPhase := some .waitingLock, rxWritten := true, txWritten := true }).reporting
    .lockLost

/-- Entering ON_AIR (R80): STEP takes gain_target at once, RAMP leaves G as it stands. -/
def Channel.enterOnAir (r : Channel) : SeqOutcome :=
  Channel.only
    { r with
      state := .onAir, settleCount := 0, freshRx := false, settlingMean := none, belowCount := 0, recoverCount := 0
      gain := match r.entry.gainMode with | .step => r.entry.gainTarget | .ramp => r.gain }

/-- Entering SQUELCHED: F 0, G kept, SQUELCH_CLOSED reported (R78, R81). -/
def Channel.enterSquelched (r : Channel) : SeqOutcome :=
  (Channel.only
    { r with
      state := .squelched, settleCount := 0, freshRx := false, settlingMean := none, belowCount := 0
      recoverCount := 0, fold := 0 }).reporting .squelchClosed

/-- Whether settling found an input: the fresh-RX flag and a settling mean at or above squelch_open (R78). -/
def Channel.inputPresent (r : Channel) : Bool :=
  r.freshRx && (match r.settlingMean with | some m => decide (r.entry.squelchOpen ≤ m) | none => false)

/-- Settling expires into ON_AIR or SQUELCHED (R78). -/
def Channel.expireSettling (r : Channel) : SeqOutcome :=
  if r.inputPresent then r.enterOnAir else r.enterSquelched

/-- The record on entering SETTLING (R78). -/
def Channel.settlingRecord (r : Channel) : Channel :=
  { r with
    state := .settling, subPhase := none, tuneCount := 0, blankingCount := 0, settleCount := 0
    freshRx := false, settlingMean := none, rxWritten := false, txWritten := false }

/-- Entering SETTLING; with SETTLE_EPOCHS of 0 it expires at the same event (R78). -/
def Channel.enterSettling (settleEpochs : Nat) (r : Channel) : SeqOutcome :=
  if settleEpochs = 0 then r.settlingRecord.expireSettling else Channel.only r.settlingRecord

/-! ## Ticks (R76, R78, R80) -/

/-- G moved toward gain_target by ramp_rate, at a tick in ON_AIR or FOLDBACK under RAMP (R80). -/
def Channel.rampGain (r : Channel) : Nat :=
  match r.entry.gainMode with
  | .step => r.gain
  | .ramp =>
    if r.gain < r.entry.gainTarget then Nat.min (r.gain + r.entry.rampRate.getD 0) r.entry.gainTarget
    else Nat.max (r.gain - r.entry.rampRate.getD 0) r.entry.gainTarget

/-- Whether a tick in TUNING reaches TUNE_LIMIT (R76 step 1). -/
def Channel.timesOut (p : SequencerParams) (r : Channel) : Bool :=
  decide (r.state = .tuning) && decide (p.tuneLimit ≤ r.tuneCount + 1)

/-- Whether a tick in TUNING ends BLANKING (R76 step 2). -/
def Channel.endsBlanking (p : SequencerParams) (r : Channel) : Bool :=
  decide (r.state = .tuning) && !(r.timesOut p) && decide (r.subPhase = some .blanking)
    && decide (Config.blankingTicks ≤ r.blankingCount + 1)

/-- Whether a tick in SETTLING expires it (R78). -/
def Channel.endsSettling (p : SequencerParams) (r : Channel) : Bool :=
  decide (r.state = .settling) && decide (p.settleEpochs ≤ r.settleCount + 1)

/-- The end of BLANKING: WAITING_LOCK, and SETTLING where both lock levels are asserted (R76 step 2). -/
def Channel.endBlanking (p : SequencerParams) (r : Channel) : SeqOutcome :=
  if r.lockRx && r.lockTx then ({ r with subPhase := some .waitingLock } : Channel).enterSettling p.settleEpochs
  else Channel.only { r with subPhase := some .waitingLock }

/-- A tick taken in TUNING (R76). -/
def Channel.tickTuning (p : SequencerParams) (r : Channel) : SeqOutcome :=
  if r.timesOut p then r.enterShutdown.reporting .lockTimeout
  else if r.subPhase = some .blanking then
    if r.endsBlanking p then
      ({ r with tuneCount := r.tuneCount + 1, blankingCount := r.blankingCount + 1 } : Channel).endBlanking p
    else Channel.only { r with tuneCount := r.tuneCount + 1, blankingCount := r.blankingCount + 1 }
  else Channel.only { r with tuneCount := r.tuneCount + 1 }

/-- A tick taken in SETTLING (R78). -/
def Channel.tickSettling (p : SequencerParams) (r : Channel) : SeqOutcome :=
  if r.endsSettling p then ({ r with settleCount := r.settleCount + 1 } : Channel).expireSettling
  else Channel.only { r with settleCount := r.settleCount + 1 }

/-- An epoch tick by the state (R76, R78, R80, R82, R86, R89). -/
def Channel.tick (p : SequencerParams) (r : Channel) : SeqOutcome :=
  match r.state with
  | .off | .squelched | .shutdown => r.only
  | .tuning => r.tickTuning p
  | .settling => r.tickSettling p
  | .onAir | .foldback => Channel.only { r with gain := r.rampGain }

/-! ## Lock lines and write completions (R75, R77) -/

/-- The lock level of a side as last taken. -/
def Channel.lock (r : Channel) : Side → Bool
  | .rx => r.lockRx
  | .tx => r.lockTx

/-- The record with a lock level recorded (R69). -/
def Channel.setLock (r : Channel) (side : Side) (asserted : Bool) : Channel :=
  match side with
  | .rx => { r with lockRx := asserted }
  | .tx => { r with lockTx := asserted }

/-- A lock line change, by the state (R77), on the record with the new level recorded. -/
def Channel.lockChanged (p : SequencerParams) (asserted : Bool) (r : Channel) : SeqOutcome :=
  match r.state with
  | .off | .shutdown => r.only
  | .tuning =>
    if asserted && decide (r.subPhase = some .waitingLock) && r.lockRx && r.lockTx then r.enterSettling p.settleEpochs
    else r.only
  | .settling | .onAir | .squelched | .foldback => if asserted then r.only else r.loseLock

/-- The record with a side marked written where a completion brings the word demanded (R75). -/
def Channel.markWritten (r : Channel) (device : Device) (value : Nat) : Channel :=
  match device with
  | .rxSyn => if value = r.demandedRx then { r with rxWritten := true } else r
  | .txSyn => if value = r.demandedTx then { r with txWritten := true } else r
  | .gain => r

/-- A write completion (R71, R75): it acts in TUNING at WRITING alone. -/
def Channel.completed (r : Channel) (device : Device) (value : Nat) : Channel :=
  if r.state = .tuning ∧ r.subPhase = some .writing then
    if (r.markWritten device value).rxWritten && (r.markWritten device value).txWritten then
      { r.markWritten device value with subPhase := some .blanking, blankingCount := 0 }
    else r.markWritten device value
  else r

/-! ## Window results (R79, R81 to R85) -/

/-- Whether an RX result of channel source is governing for channel c (R79). -/
def Channel.governedBy (c : Chan) (r : Channel) (source : Chan) : Bool :=
  decide (source = r.entry.squelchSource.getD c)

/-- The below-count after a governing RX result on air (R81). -/
def Channel.nextBelow (r : Channel) (mean : Int) : Nat :=
  if mean < r.entry.squelchClose then r.belowCount + 1 else 0

/-- A governing RX result with this mean, by the state (R79, R81, R82). -/
def Channel.governingRx (r : Channel) (mean : Int) : SeqOutcome :=
  match r.state with
  | .off | .tuning | .shutdown => r.only
  | .settling => Channel.only { r with freshRx := true, settlingMean := some mean }
  | .onAir | .foldback =>
    if mean < r.entry.squelchClose ∧ r.entry.squelchHoldoff ≤ r.belowCount + 1 then r.enterSquelched
    else Channel.only { r with belowCount := r.nextBelow mean }
  | .squelched => if r.entry.squelchOpen ≤ mean then r.enterOnAir else r.only

/-- The reflection limit of a channel (R83). -/
def Channel.reflectionLimit (p : SequencerParams) (r : Channel) : Int := r.entry.reflLimit.getD p.reflLimit

/-- A REFL mean above the limit, on air (R83). -/
def Channel.foldMore (p : SequencerParams) (r : Channel) : SeqOutcome :=
  if r.gain ≤ r.fold + p.foldbackStep then r.enterShutdown.reporting .reflShutdown
  else
    let o := Channel.only { r with state := .foldback, fold := r.fold + p.foldbackStep, recoverCount := 0 }
    if r.fold = 0 then o.reporting .foldbackEntered else o

/-- A REFL mean at or below the limit, in FOLDBACK (R84). -/
def Channel.recover (p : SequencerParams) (r : Channel) : Channel :=
  if p.recoverWindows ≤ r.recoverCount + 1 then
    { r with
      fold := r.fold - p.foldbackStep, recoverCount := 0
      state := if r.fold - p.foldbackStep = 0 then .onAir else .foldback }
  else { r with recoverCount := r.recoverCount + 1 }

/-- A REFL result with this mean, by the state (R83, R84). -/
def Channel.reflected (p : SequencerParams) (r : Channel) (mean : Int) : SeqOutcome :=
  match r.state with
  | .onAir => if r.reflectionLimit p < mean then r.foldMore p else r.only
  | .foldback => if r.reflectionLimit p < mean then r.foldMore p else (r.recover p).only
  | .off | .tuning | .settling | .squelched | .shutdown => r.only

/-- A FWD result with this mean: NO_CARRIER below CARRIER_FLOOR at full gain on air (R85). -/
def Channel.forward (p : SequencerParams) (r : Channel) (mean : Int) : SeqOutcome :=
  if r.state.carrier && decide (r.gain = r.entry.gainTarget) && decide (mean < p.carrierFloor) then
    r.only.reporting .noCarrier
  else r.only

/-! ## Fault shutdown, site notices, entry changes (R87, R90 to R93) -/

/-- A fault shutdown, by the state (R87). -/
def Channel.faultShutdown (r : Channel) : SeqOutcome :=
  match r.state with
  | .off => r.only
  | .shutdown => r.only.reporting .faultShutdown
  | .tuning | .settling | .onAir | .squelched | .foldback => r.enterShutdown.reporting .faultShutdown

/-- Site start (R90). -/
def Channel.siteStart (raster : Nat) (r : Channel) : SeqOutcome :=
  if r.state = .off ∧ r.entry.service = .inService then r.enterTuning raster else r.only

/-- Site stop (R90). -/
def Channel.siteStop (r : Channel) : SeqOutcome := if r.state = .off then r.only else r.enterOff

/-- Whether two entries have the same frequencies (chapter 5.8). -/
def PlanEntry.sameFrequencies (e e' : PlanEntry) : Bool :=
  decide (e.rxFreq = e'.rxFreq) && decide (e.txFreq = e'.txFreq)

/-- The commanded gain after an entry change with the same frequencies (R93). -/
def Channel.gainUnder (r : Channel) (e : PlanEntry) : Nat :=
  if e.gainMode = .step ∧ (e.gainTarget ≠ r.entry.gainTarget ∨ e.gainMode ≠ r.entry.gainMode)
      ∧ (r.state = .onAir ∨ r.state = .foldback ∨ r.state = .squelched) then e.gainTarget
  else r.gain

/-- An in-service entry change with the same frequencies (R93). -/
def Channel.sameFrequencyChange (r : Channel) (e : PlanEntry) : Channel :=
  if e.squelchSource = r.entry.squelchSource then { r with entry := e, gain := r.gainUnder e }
  else
    { r with
      entry := e, gain := r.gainUnder e, belowCount := 0
      freshRx := if r.state = .settling then false else r.freshRx
      settlingMean := if r.state = .settling then none else r.settlingMean }

/-- An entry change (R91 to R93); operate says whether Mode Control holds OPERATE. -/
def Channel.entryChanged (raster : Nat) (operate : Bool) (r : Channel) (e : PlanEntry) : SeqOutcome :=
  match r.state with
  | .off =>
    if e.service = .inService ∧ operate then ({ r with entry := e } : Channel).enterTuning raster
    else Channel.only { r with entry := e }
  | .shutdown =>
    if e.service = .outOfService then ({ r with entry := e } : Channel).enterOff
    else if e.sameFrequencies r.entry then (r.sameFrequencyChange e).only
    else Channel.only { r with entry := e }
  | .tuning | .settling | .onAir | .squelched | .foldback =>
    if e.service = .outOfService then ({ r with entry := e } : Channel).enterOff
    else if e.sameFrequencies r.entry then (r.sameFrequencyChange e).only
    else ({ r with entry := e } : Channel).enterTuning raster

/-! ## The commands -/

/-- Channel c's sequencer takes its next epoch tick where the test on its record holds. -/
def tickChannel (c : Chan) (due : Channel → Bool) (s : State) : State :=
  if due (s.channels.get c) then
    takeTick (.sequencer c) (fun _ s => s.commit c ((s.channels.get c).tick s.params)) s
  else s

/-- SEQUENCER_TICK (R76, R78, R80): a sequencer takes an epoch tick. -/
def execSequencerTick (c : Chan) (s : State) : Host.Outcome State Fault Refusal :=
  .next (tickChannel c (fun _ => true) s)

/-- LOCK_TIMEOUT (R76): the tick that reaches TUNE_LIMIT (log entry 4). -/
def execLockTimeout (c : Chan) (s : State) : Host.Outcome State Fault Refusal :=
  .next (tickChannel c (Channel.timesOut s.params) s)

/-- BLANKING_END (R76): the tick that brings the blanking count to 2 (log entry 4). -/
def execBlankingEnd (c : Chan) (s : State) : Host.Outcome State Fault Refusal :=
  .next (tickChannel c (Channel.endsBlanking s.params) s)

/-- SETTLING_EXPIRY (R78): the tick at which settling expires (log entry 4). -/
def execSettlingExpiry (c : Chan) (s : State) : Host.Outcome State Fault Refusal :=
  .next (tickChannel c (Channel.endsSettling s.params) s)

/-- ENTRY_CHANGE (R91 to R93): a sequencer takes its next entry change. -/
def execEntryChange (c : Chan) (s : State) : Host.Outcome State Fault Refusal :=
  .next <|
    match s.take (Message.isEntryChange c) with
    | some (.entryChange _ e, s') =>
      s'.commit c ((s'.channels.get c).entryChanged s'.plan.raster (decide (s'.mode.mode = .operate)) e)
    | _ => s

/-- SITE_START (R90): a sequencer takes its next site start, after the entry changes sent before it. -/
def execSiteStart (c : Chan) (s : State) : Host.Outcome State Fault Refusal :=
  .next <|
    match s.take (Message.beforeSiteStart c) with
    | some (.siteStart _, s') => s'.commit c ((s'.channels.get c).siteStart s'.plan.raster)
    | _ => s

/-- SITE_STOP (R90): a sequencer takes its next site stop. -/
def execSiteStop (c : Chan) (s : State) : Host.Outcome State Fault Refusal :=
  .next <|
    match s.take (Message.isSiteNotice c) with
    | some (.siteStop _, s') => s'.commit c (s'.channels.get c).siteStop
    | _ => s

/-- LOCK_LINE_CHANGE (R77): a lock line takes another level than the one recorded. -/
def execLockLineChange (c : Chan) (side : Side) (asserted : Bool) (s : State) : Host.Outcome State Fault Refusal :=
  .next <|
    whenRunning
      (fun s =>
        if (s.channels.get c).lock side = asserted then s
        else s.commit c (((s.channels.get c).setLock side asserted).lockChanged s.params asserted)) s

/-- TUNE_WRITE_COMPLETION (R75): a sequencer takes its next write completion. -/
def execTuneWriteCompletion (c : Chan) (s : State) : Host.Outcome State Fault Refusal :=
  .next <|
    match s.take (Message.isCompletion c) with
    | some (.completion w, s') => s'.commit c ((s'.channels.get c).completed w.target.device w.value).only
    | _ => s

/-- A sequencer takes its next window result where it is of this quantity (R116). -/
def takeResult (c : Chan) (q : Quantity) (f : SequencerParams → Channel → WindowResult → SeqOutcome) (s : State) :
    State :=
  match s.take (Message.isResult c) with
  | some (.result _ w, s') => if w.quantity = q then s'.commit c (f s'.params (s'.channels.get c) w) else s
  | _ => s

/-- RX_RESULT (R79, R81, R82). -/
def execRxResult (c : Chan) (s : State) : Host.Outcome State Fault Refusal :=
  .next <|
    takeResult c .rx (fun _ r w => if r.governedBy c w.channel then r.governingRx w.mean else r.only) s

/-- REFL_RESULT (R83, R84). -/
def execReflResult (c : Chan) (s : State) : Host.Outcome State Fault Refusal :=
  .next <| takeResult c .refl (fun p r w => r.reflected p w.mean) s

/-- FWD_RESULT (R85). -/
def execFwdResult (c : Chan) (s : State) : Host.Outcome State Fault Refusal :=
  .next <| takeResult c .fwd (fun p r w => r.forward p w.mean) s

/-- FAULT_SHUTDOWN (R87): a sequencer takes a fault shutdown. -/
def execFaultShutdown (c : Chan) (s : State) : Host.Outcome State Fault Refusal :=
  .next <|
    match s.take (Message.isFaultShutdown c) with
    | some (_, s') => s'.commit c (s'.channels.get c).faultShutdown
    | none => s

/-- Whether a latched LINE_ASSERTED slot of a SHUTDOWN line bound to the channel stands (R88 step 5). -/
def State.shutdownLine (s : State) (c : Chan) (n : Line) : Bool :=
  (s.conditions.slots.get (lineSlot n)).latched && decide ((s.lines.get n).config.action = .shutdown)
    && (s.lines.get n).config.channels.getLsbD c.val

/-- RESTART CHANNEL by the sequencer of the channel named (R88). -/
def restartChannel (p : Port) (c : Chan) (s : State) : Reply × State :=
  holderOnly p
    (fun s =>
      if s.mode.mode = .standby then (.wrongMode, s)
      else if (s.channels.get c).state ≠ .shutdown then
        (.refused .state .notShutdown (BitVec.ofNat 8 c.val), s)
      else
        match lowestChan (s.shutdownLine c) with
        | some n => (.refused .faultPresent .lineShutdown (BitVec.ofNat 8 (lineSlot n).val), s)
        | none => (.done [], s.commit c ((s.channels.get c).enterTuning s.plan.raster))) s

/-- A request naming no channel, at the Channel Sequencer block (R88, R95). -/
def Reply.noChannel : Reply := .refused .range .channel noNumber

/-- RESTART_CHANNEL (R88). -/
def execRestartChannel (p : Port) (channel : Byte) (s : State) : Host.Outcome State Fault Refusal :=
  .next <|
    serve (channelOwner channel) p
      (fun body s =>
        match body with
        | .restartChannel n =>
          if n ≠ channel then none
          else match chanOf channel.toNat with
            | some c => some (restartChannel p c s)
            | none => some (holderOnly p (fun s => (.noChannel, s)) s)
        | _ => none) s

/-- READ_CHANNEL (R95): any port, no state changed. -/
def execReadChannel (p : Port) (channel : Byte) (s : State) : Host.Outcome State Fault Refusal :=
  .next <|
    serve (channelOwner channel) p
      (fun body s =>
        match body with
        | .readChannel n =>
          if n ≠ channel then none
          else match chanOf channel.toNat with
            | some c => some (.done (encodeChannel c (s.channels.get c) (s.gate c)), s)
            | none => some (.noChannel, s)
        | _ => none) s

end Sys2Proof.Machine
end

