-- ==== Sys2Proof/Machine/Dispatch.lean ====
section
/-! DEFINITION. Which meaning each command has. -/

namespace Sys2Proof.Machine

/-- The effect of a command on everything but the queue of waiting commands. -/
def exec (i : Instr) (s : State) : Host.Outcome State Fault Refusal :=
  match i with
  | .hardwareReset => Sys2Proof.Machine.execHardwareReset s
  | .startUpLoadEnd read => Sys2Proof.Machine.execStartUpLoadEnd read s
  | .requestFrameComplete port bytes => Sys2Proof.Machine.execRequestFrameComplete port bytes s
  | .portReadTransfer port => Sys2Proof.Machine.execPortReadTransfer port s
  | .selectPeriodEnd port => Sys2Proof.Machine.execSelectPeriodEnd port s
  | .portSIdleDetect => Sys2Proof.Machine.execPortSIdleDetect s
  | .portSFramingError => Sys2Proof.Machine.execPortSFramingError s
  | .responseTransmissionEnd => Sys2Proof.Machine.execResponseTransmissionEnd s
  | .identify port bytes => Sys2Proof.Machine.execIdentify port bytes s
  | .readStatus port bytes => Sys2Proof.Machine.execReadStatus port bytes s
  | .claim port => Sys2Proof.Machine.execClaim port s
  | .reserve port => Sys2Proof.Machine.execReserve port s
  | .release port => Sys2Proof.Machine.execRelease port s
  | .keepalive port => Sys2Proof.Machine.execKeepalive port s
  | .stageEntry port => Sys2Proof.Machine.execStageEntry port s
  | .stageClear port => Sys2Proof.Machine.execStageClear port s
  | .stageCopy port => Sys2Proof.Machine.execStageCopy port s
  | .readEntry port => Sys2Proof.Machine.execReadEntry port s
  | .armActivation port => Sys2Proof.Machine.execArmActivation port s
  | .disarm port => Sys2Proof.Machine.execDisarm port s
  | .activateNow port => Sys2Proof.Machine.execActivateNow port s
  | .restartChannel port channel => Sys2Proof.Machine.execRestartChannel port channel s
  | .readChannel port channel => Sys2Proof.Machine.execReadChannel port channel s
  | .setModeOperate port => Sys2Proof.Machine.execSetModeOperate port s
  | .setModeStandby port => Sys2Proof.Machine.execSetModeStandby port s
  | .siteStandby port => Sys2Proof.Machine.execSiteStandby port s
  | .initializeSite port => Sys2Proof.Machine.execInitializeSite port s
  | .initializeNoticeReport block => Sys2Proof.Machine.execInitializeNoticeReport block s
  | .planControllerInitialize => Sys2Proof.Machine.execPlanControllerInitialize s
  | .sequencerParametersInitialize => Sys2Proof.Machine.execSequencerParametersInitialize s
  | .levelMonitorInitialize => Sys2Proof.Machine.execLevelMonitorInitialize s
  | .faultLineInitialize => Sys2Proof.Machine.execFaultLineInitialize s
  | .conditionTableInitialize => Sys2Proof.Machine.execConditionTableInitialize s
  | .configureApplyMode port => Sys2Proof.Machine.execConfigureApplyMode port s
  | .configureRaster port => Sys2Proof.Machine.execConfigureRaster port s
  | .configureKeepaliveLimit port => Sys2Proof.Machine.execConfigureKeepaliveLimit port s
  | .configureTuneLimit port => Sys2Proof.Machine.execConfigureTuneLimit port s
  | .configureSettleEpochs port => Sys2Proof.Machine.execConfigureSettleEpochs port s
  | .configureFoldbackStep port => Sys2Proof.Machine.execConfigureFoldbackStep port s
  | .configureRecoverWindows port => Sys2Proof.Machine.execConfigureRecoverWindows port s
  | .configureReflLimit port => Sys2Proof.Machine.execConfigureReflLimit port s
  | .configureCarrierFloor port => Sys2Proof.Machine.execConfigureCarrierFloor port s
  | .configureWindowLength port => Sys2Proof.Machine.execConfigureWindowLength port s
  | .configureSampleFormat port => Sys2Proof.Machine.execConfigureSampleFormat port s
  | .configureReportSelect port => Sys2Proof.Machine.execConfigureReportSelect port s
  | .configureReportThreshold port => Sys2Proof.Machine.execConfigureReportThreshold port s
  | .configureLine port => Sys2Proof.Machine.execConfigureLine port s
  | .configureEpochPeriod port => Sys2Proof.Machine.execConfigureEpochPeriod port s
  | .configureLatestResult port => Sys2Proof.Machine.execConfigureLatestResult port s
  | .configureAttention port => Sys2Proof.Machine.execConfigureAttention port s
  | .readConfigApplyMode port => Sys2Proof.Machine.execReadConfigApplyMode port s
  | .readConfigRaster port => Sys2Proof.Machine.execReadConfigRaster port s
  | .readConfigKeepaliveLimit port => Sys2Proof.Machine.execReadConfigKeepaliveLimit port s
  | .readConfigTuneLimit port => Sys2Proof.Machine.execReadConfigTuneLimit port s
  | .readConfigSettleEpochs port => Sys2Proof.Machine.execReadConfigSettleEpochs port s
  | .readConfigFoldbackStep port => Sys2Proof.Machine.execReadConfigFoldbackStep port s
  | .readConfigRecoverWindows port => Sys2Proof.Machine.execReadConfigRecoverWindows port s
  | .readConfigReflLimit port => Sys2Proof.Machine.execReadConfigReflLimit port s
  | .readConfigCarrierFloor port => Sys2Proof.Machine.execReadConfigCarrierFloor port s
  | .readConfigWindowLength port => Sys2Proof.Machine.execReadConfigWindowLength port s
  | .readConfigSampleFormat port => Sys2Proof.Machine.execReadConfigSampleFormat port s
  | .readConfigReportSelect port => Sys2Proof.Machine.execReadConfigReportSelect port s
  | .readConfigReportThreshold port => Sys2Proof.Machine.execReadConfigReportThreshold port s
  | .readConfigLine port => Sys2Proof.Machine.execReadConfigLine port s
  | .readConfigEpochPeriod port => Sys2Proof.Machine.execReadConfigEpochPeriod port s
  | .readConfigLatestResult port => Sys2Proof.Machine.execReadConfigLatestResult port s
  | .readConfigAttention port => Sys2Proof.Machine.execReadConfigAttention port s
  | .setEpoch port => Sys2Proof.Machine.execSetEpoch port s
  | .readConditions port => Sys2Proof.Machine.execReadConditions port s
  | .clearConditions port => Sys2Proof.Machine.execClearConditions port s
  | .setAttention port => Sys2Proof.Machine.execSetAttention port s
  | .acknowledge port => Sys2Proof.Machine.execAcknowledge port s
  | .readReports port => Sys2Proof.Machine.execReadReports port s
  | .flushReports port => Sys2Proof.Machine.execFlushReports port s
  | .licenceEntry port => Sys2Proof.Machine.execLicenceEntry port s
  | .licenceCommit port => Sys2Proof.Machine.execLicenceCommit port s
  | .licenceErase port => Sys2Proof.Machine.execLicenceErase port s
  | .readLicence port => Sys2Proof.Machine.execReadLicence port s
  | .programmingCompletion readBack => Sys2Proof.Machine.execProgrammingCompletion readBack s
  | .eraseCompletion => Sys2Proof.Machine.execEraseCompletion s
  | .epochEnd => Sys2Proof.Machine.execEpochEnd s
  | .planControllerTick => Sys2Proof.Machine.execPlanControllerTick s
  | .activationAbandoned => Sys2Proof.Machine.execActivationAbandoned s
  | .standbyNotice => Sys2Proof.Machine.execStandbyNotice s
  | .sequencerTick channel => Sys2Proof.Machine.execSequencerTick channel s
  | .lockTimeout channel => Sys2Proof.Machine.execLockTimeout channel s
  | .blankingEnd channel => Sys2Proof.Machine.execBlankingEnd channel s
  | .settlingExpiry channel => Sys2Proof.Machine.execSettlingExpiry channel s
  | .authorityTick => Sys2Proof.Machine.execAuthorityTick s
  | .keepaliveLapse => Sys2Proof.Machine.execKeepaliveLapse s
  | .entryChange channel => Sys2Proof.Machine.execEntryChange channel s
  | .siteStart channel => Sys2Proof.Machine.execSiteStart channel s
  | .siteStop channel => Sys2Proof.Machine.execSiteStop channel s
  | .lockLineChange channel side asserted => Sys2Proof.Machine.execLockLineChange channel side asserted s
  | .tuneWriteCompletion channel => Sys2Proof.Machine.execTuneWriteCompletion channel s
  | .rxResult channel => Sys2Proof.Machine.execRxResult channel s
  | .reflResult channel => Sys2Proof.Machine.execReflResult channel s
  | .fwdResult channel => Sys2Proof.Machine.execFwdResult channel s
  | .faultShutdown channel => Sys2Proof.Machine.execFaultShutdown channel s
  | .writeDemand channel => Sys2Proof.Machine.execWriteDemand channel s
  | .linkWriteComplete => Sys2Proof.Machine.execLinkWriteComplete s
  | .sampleArrival bits => Sys2Proof.Machine.execSampleArrival bits s
  | .offNotice channel => Sys2Proof.Machine.execOffNotice channel s
  | .faultPinChange line high => Sys2Proof.Machine.execFaultPinChange line high s
  | .filterIntervalEnd line => Sys2Proof.Machine.execFilterIntervalEnd line s
  | .faultStandby line => Sys2Proof.Machine.execFaultStandby line s
  | .occurrence slot => Sys2Proof.Machine.execOccurrence slot s
  | .deassertionNotice line => Sys2Proof.Machine.execDeassertionNotice line s
  | .endOfHardwareReset pins => Sys2Proof.Machine.execEndOfHardwareReset pins s
  | .lossOfSupply => Sys2Proof.Machine.execLossOfSupply s
  | .lengthByteAbove60 port length => Sys2Proof.Machine.execLengthByteAbove60 port length s
  | .responseTransmissionStart => Sys2Proof.Machine.execResponseTransmissionStart s

end Sys2Proof.Machine
end

