-- ==== Sys2Proof/Machine/Step.lean ====
section
/-!
DEFINITION. One step of the part: the command at the front of the queue is taken and carried out. With no command
waiting one timebase unit passes (log entry 5).
-/

namespace Sys2Proof.Machine

/-- What happens with no command waiting: a running part's timebase counts one unit of 100 us (R39, R40); the
last unit of the epoch does not pass while the start-up load runs (R46, log entry 34). -/
def State.idle (s : State) : State := whenRunning State.unitPasses s

/-- One step. -/
def step (s : State) : Host.Outcome State Fault Refusal :=
  match s.pending with
  | [] => .next s.idle
  | c :: cs => exec c { s with pending := cs }

/-- The state with the command a word spells put at the front of its queue, unchanged where it spells none. -/
def State.withFetchWord (s : State) (nbits w : Nat) : State :=
  match decodeTableWord nbits w with
  | none => s
  | some c => { s with pending := c :: s.pending }

end Sys2Proof.Machine
end

