-- ==== Sys2Proof/Safety.lean ====
section
/-!
DEFINITION. The words of the statements: what it means that a request or a notice is the next one an owner takes, and
the laws the manual says its blocks keep, as properties of a state.
-/

namespace Sys2Proof.Machine

/-! ## What a command finds -/

/-- The next request of port p for owner o is this one, and s' is s with it taken. No tag: a broadcast. -/
def Asked (o : Owner) (p : Port) (tag : Option Byte) (body : Request) (s s' : State) : Prop :=
  s.take (Message.isRequest o p) = some (.request o p tag body, s')

/-- The first message in transit of a kind is m, and s' is s with it taken. -/
def State.TakesFirst (s : State) (kind : Message → Prop) (m : Message) (s' : State) : Prop :=
  ∃ before after, s.transit = before ++ m :: after ∧ s' = { s with transit := before ++ after }
    ∧ kind m ∧ ∀ x ∈ before, ¬ kind x

/-- Port p is HOLDER. -/
abbrev Holds (s : State) (p : Port) : Prop := (s.authority.get p).role = .holder

/-! ## Numbers and records as frames carry them (R184) -/

/-- A number in two bytes, most significant first. -/
def word2 (n : Nat) : List Byte := [BitVec.ofNat 8 (n / 256), BitVec.ofNat 8 n]

/-- A number in three bytes, most significant first. -/
def word3 (n : Nat) : List Byte := [BitVec.ofNat 8 (n / 65536), BitVec.ofNat 8 (n / 256), BitVec.ofNat 8 n]

/-- A level in two bytes, two's complement. -/
def level2 (l : Int) : List Byte := word2 (l % 65536).toNat

/-- The number two bytes spell. -/
def number2 (a b : Byte) : Nat := 256 * a.toNat + b.toNat

/-- The number three bytes spell. -/
def number3 (a b c : Byte) : Nat := 65536 * a.toNat + 256 * b.toNat + c.toNat

/-- The level two bytes spell in two's complement. -/
def levelOf (a b : Byte) : Int := if number2 a b < 32768 then (number2 a b : Int) else (number2 a b : Int) - 65536

/-- A bit of a presence or flag byte. -/
def flag (b : Bool) (weight : Nat) : Nat := if b then weight else 0

/-- What a request to stage this entry carries. -/
def PlanEntry.raw (e : PlanEntry) : RawEntry where
  service := match e.service with | .outOfService => 0 | .inService => 1
  rxFreq := e.rxFreq
  txFreq := e.txFreq
  gainTarget := e.gainTarget
  gainMode := match e.gainMode with | .step => 0 | .ramp => 1
  rampRate := e.rampRate
  squelchOpen := e.squelchOpen
  squelchClose := e.squelchClose
  squelchHoldoff := e.squelchHoldoff
  squelchSource := e.squelchSource.map Fin.val
  reflLimit := e.reflLimit

/-- What a request to write this licence entry carries. -/
def rawLicence (x : LicenceEntry) : RawLicence :=
  ⟨x.txLow, x.txHigh, x.gainCeiling, x.input.map InputWindow.low, x.input.map InputWindow.high⟩

/-- A refusal payload naming no number. -/
def Reply.plain (k : RefusalKind) (d : Detail) : Reply := .refused k d noNumber

/-! ## The Authority Unit (R144, R145, R155) -/

/-- At most one holder, at most one reserve, a reserve only beside a holder, Port S never reserve; counts below the
limit while a role is held and 0 while idle; the limit 2 to 255. -/
structure AuthorityUnit.Lawful (u : AuthorityUnit) : Prop where
  oneHolder : ∀ p q, (u.get p).role = .holder → (u.get q).role = .holder → p = q
  oneReserve : ∀ p q, (u.get p).role = .reserve → (u.get q).role = .reserve → p = q
  reserveBesideHolder : ∀ p, (u.get p).role = .reserve → ∃ q, (u.get q).role = .holder
  neverS : u.s.role ≠ .reserve
  belowLimit : ∀ p, (u.get p).role ≠ .idle → (u.get p).count < u.limit
  idleZero : ∀ p, (u.get p).role = .idle → (u.get p).count = 0
  limitRange : 2 ≤ u.limit ∧ u.limit ≤ 255

/-- Some port of this role has a count that the next raise brings to the limit (R150). -/
def AuthorityUnit.Lapsing (u : AuthorityUnit) (role : Role) : Prop :=
  ∃ p, (u.get p).role = role ∧ u.limit ≤ (u.get p).count + 1

/-- Some port of this role has a count that the next raise leaves below the limit (R150). -/
def AuthorityUnit.Surviving (u : AuthorityUnit) (role : Role) : Prop :=
  ∃ p, (u.get p).role = role ∧ (u.get p).count + 1 < u.limit

/-! ## The Channel Sequencers (R68, R70, R84, R91) -/

/-- The ranges of the six site-wide parameters (R70). -/
structure SequencerParams.Lawful (k : SequencerParams) : Prop where
  tuneLimit : 1 ≤ k.tuneLimit ∧ k.tuneLimit ≤ 255
  settleEpochs : k.settleEpochs ≤ 255
  foldbackStep : 5 ≤ k.foldbackStep ∧ k.foldbackStep ≤ 60
  recoverWindows : 1 ≤ k.recoverWindows ∧ k.recoverWindows ≤ 64
  reflLimit : -32768 ≤ k.reflLimit ∧ k.reflLimit ≤ 32767
  carrierFloor : -32768 ≤ k.carrierFloor ∧ k.carrierFloor ≤ 32767

/-- What the channel record holds in and outside the stage each field serves (R68), the foldback law (R84), the
demanded gain word (R71), and that a channel out of service is OFF (R91). -/
structure Channel.Lawful (r : Channel) : Prop where
  outsideTuning : r.state ≠ .tuning →
    r.subPhase = none ∧ r.tuneCount = 0 ∧ r.blankingCount = 0 ∧ r.rxWritten = false ∧ r.txWritten = false
  inTuning : r.state = .tuning → r.subPhase.isSome ∧ r.tuneCount ≤ 254 ∧ r.blankingCount ≤ 2
  blanking : r.subPhase = some .blanking → r.blankingCount ≤ 1
  outsideSettling : r.state ≠ .settling → r.settleCount = 0 ∧ r.freshRx = false
  settleRange : r.settleCount ≤ 254
  meanIffFresh : r.settlingMean.isSome = r.freshRx
  noGain : r.state = .off ∨ r.state = .tuning ∨ r.state = .settling ∨ r.state = .shutdown → r.gain = 0
  foldIff : 0 < r.fold ↔ r.state = .foldback
  outsideFoldback : r.state ≠ .foldback → r.recoverCount = 0
  recoverRange : r.recoverCount ≤ 63
  offAir : r.state.carrier = false → r.belowCount = 0
  demanded : r.demandedGain = r.gain - r.fold
  writing : r.subPhase = some .writing → ¬ (r.rxWritten = true ∧ r.txWritten = true)
  outOfServiceOff : r.entry.service = .outOfService → r.state = .off

/-- The ranges of R68 that rest on the form of the entries (R1). -/
structure Channel.InRange (r : Channel) : Prop where
  gain : r.gain ≤ 600
  fold : r.fold ≤ 599
  belowCount : r.belowCount ≤ 15
  demandedGain : r.demandedGain ≤ 600
  demandedWords : r.demandedRx ≤ 1000000 ∧ r.demandedTx ≤ 1000000

/-- The sequencers' law: parameters in range, every record lawful. -/
structure State.SequencersLawful (s : State) : Prop where
  params : s.params.Lawful
  records : ∀ c, (s.channels.get c).Lawful

/-- The state after an event at channel c's sequencer that leaves the record r: its demanded gain word is max(G - F, 0);
where that word changes its demand goes to the link ahead of the tune demands of the event; other messages follow
(R71). -/
def State.afterEvent (c : Chan) (r : Channel) (tunes : List WriteRecord) (ms : List Message) (s : State) : State :=
  let writes :=
    (if r.gain - r.fold = (s.channels.get c).demandedGain then [] else [⟨⟨c, .gain⟩, r.gain - r.fold⟩]) ++ tunes
  { s with
    channels := put s.channels c { r with demandedGain := r.gain - r.fold }
    transit := s.transit ++ (if writes = [] then [] else [.demands c writes]) ++ ms }

/-- The two tune demands of an event, receive side first (R71, R72). -/
def tuneDemands (c : Chan) (rx tx : Nat) : List WriteRecord := [⟨⟨c, .rxSyn⟩, rx⟩, ⟨⟨c, .txSyn⟩, tx⟩]

/-! ## Plan entries (R1) and working entries (R5) -/

/-- A number in level units (R1). -/
abbrev IsLevel (l : Int) : Prop := -32768 ≤ l ∧ l ≤ 32767

/-- The form of a stored plan entry, but for the multiples of RASTER (R1). -/
structure PlanEntry.Fits (e : PlanEntry) : Prop where
  rx : 30000 ≤ e.rxFreq ∧ e.rxFreq ≤ 1000000
  tx : 30000 ≤ e.txFreq ∧ e.txFreq ≤ 1000000
  differ : e.txFreq ≠ e.rxFreq
  gain : e.gainTarget ≤ 600
  rate : e.rampRate.isSome = decide (e.gainMode = .ramp)
  rateRange : ∀ r, e.rampRate = some r → 1 ≤ r ∧ r ≤ 50
  squelch : e.squelchClose ≤ e.squelchOpen
  holdoff : 1 ≤ e.squelchHoldoff ∧ e.squelchHoldoff ≤ 16
  openLevel : IsLevel e.squelchOpen
  closeLevel : IsLevel e.squelchClose
  reflLevel : ∀ l, e.reflLimit = some l → IsLevel l

/-- The level fields of a submitted entry hold levels, as the two bytes of each carry them (R184). -/
structure RawEntry.LevelsFit (r : RawEntry) : Prop where
  openLevel : IsLevel r.squelchOpen
  closeLevel : IsLevel r.squelchClose
  reflLevel : ∀ l, r.reflLimit = some l → IsLevel l

/-- Every plan entry the part holds has the form of R1 and no channel names itself as its source: both tables, the
working entries, the entry changes under way; a submitted entry under way holds levels in its level fields. -/
structure State.EntriesFit (s : State) : Prop where
  staged : ∀ c, (s.plan.staged.get c).Fits ∧ (s.plan.staged.get c).squelchSource ≠ some c
  active : ∀ c, (s.plan.active.get c).Fits ∧ (s.plan.active.get c).squelchSource ≠ some c
  working : ∀ c, (s.channels.get c).entry.Fits ∧ (s.channels.get c).entry.squelchSource ≠ some c
  sent : ∀ c e, Message.entryChange c e ∈ s.transit → e.Fits ∧ e.squelchSource ≠ some c
  asked : ∀ o p tag n r, Message.request o p tag (.stageEntry n r) ∈ s.transit → r.LevelsFit

/-- The entry the last entry change under way for a channel carries; without one, the channel's working entry. -/
def lastEntry (c : Chan) : List Message → PlanEntry → PlanEntry
  | [], e => e
  | .entryChange c' e' :: ms, e => lastEntry c ms (if c' = c then e' else e)
  | _ :: ms, e => lastEntry c ms e

/-- Each channel's working entry is the active entry of the channel once its entry changes have been taken (R5). -/
def State.WorkingFollowsActive (s : State) : Prop :=
  ∀ c, lastEntry c s.transit (s.channels.get c).entry = s.plan.active.get c

/-! ## Pending activation (R47) -/

/-- A pending activation exists only under WHOLE_PLAN, and in OPERATE or before the standby notice of a departure since the
arming has been taken; its plan number is 1 to 65,535 and its overdue count below 32. The notices that were untaken at the
arming still are. -/
def State.PendingLawful (s : State) : Prop :=
  ∀ x, s.plan.pendingActivation = some x →
    s.plan.applyMode = .wholePlan ∧ (s.mode.mode = .operate ∨ x.oldNotices < s.standbyNotices)
      ∧ x.planNumber ≠ 0 ∧ (∀ k, x.overdue = some k → k < 32) ∧ x.oldNotices ≤ s.standbyNotices

/-! ## The link (R99), the timebase (R39, R40) -/

/-- The queue holds at most one record for any target. -/
def Link.Lawful (l : Link) : Prop := (l.queue.map WriteRecord.target).Nodup

/-- PRESCALE and MODULO in range, the position below the epoch period. -/
structure Timebase.Lawful (t : Timebase) : Prop where
  prescale : t.prescale ∈ [1, 2, 4, 8, 16, 32, 64]
  modulo : 10 ≤ t.modulo ∧ t.modulo ≤ 65535
  position : t.position < t.prescale * t.modulo

/-! ## The Level Monitor (R112, R119, R123, R124) -/

/-- An accumulator under a window length: the count below it, sum and wraps in range, empty at count 0, min and max
present otherwise, the true sum within what so many levels can total. -/
structure Accumulator.Lawful (window : Nat) (x : Accumulator) : Prop where
  count : x.count < window
  sum : -8388608 ≤ x.sum ∧ x.sum ≤ 8388607
  empty : x.count = 0 → x = Accumulator.empty
  extremes : 0 < x.count → x.min.isSome ∧ x.max.isSome
  total : -32768 * (x.count : Int) ≤ x.sum + x.wraps * 16777216 ∧ x.sum + x.wraps * 16777216 ≤ 32767 * (x.count : Int)

/-- At most 48 report records; WINDOW_LENGTH and REPORT_THRESHOLD in range; every accumulator lawful. -/
structure LevelMonitor.Lawful (l : LevelMonitor) : Prop where
  reports : l.reports.length ≤ 48
  window : 1 ≤ l.windowLength ∧ l.windowLength ≤ 1024
  threshold : 1 ≤ l.reportThreshold ∧ l.reportThreshold ≤ 48
  meters : ∀ c q, (l.meter c q).acc.Lawful l.windowLength

/-- The low k bits of a number, most significant first, as a sample word carries them (R108). -/
def bitsOf (k n : Nat) : List Bool := (List.range k).map fun i => n.testBit (k - 1 - i)

/-! ## The Condition Table (R159, R167) -/

/-- A slot that is not latched is clear; a latched one has an epoch and 1 to 255 occurrences; clear-pending stands on
line slots alone. -/
structure Slot.Lawful (i : SlotNo) (t : Slot) : Prop where
  unlatched : t.latched = false → t = Slot.clear
  latched : t.latched = true → t.lastEpoch.isSome ∧ 1 ≤ t.occurrences
  occurrences : t.occurrences ≤ 255
  lineOnly : t.clearPending = true → 67 ≤ i.val

/-- Every slot lawful, and each attention line at the level its port's mask, mode and latch and the slots give. -/
structure ConditionTable.Lawful (k : ConditionTable) : Prop where
  slots : ∀ i, (k.slots.get i).Lawful i
  lines : ∀ p, (k.attention p).line = true ↔
    (k.attention p).latch = true ∨
      (k.attention p).mode = .level ∧
        ∃ i, (k.slots.get i).latched = true ∧ (k.attention p).mask.getLsbD (kindOf i) = true
          ∧ (k.slots.get i).seenBy.has p = false

/-! ## OPERATE (R34, R37, R127, R135) -/

/-- In OPERATE the part runs, the start-up load is over and the store is PROTECTED; while the load runs no request is
under way and no tick, so that every tick finds the load ended (R46); a part that does not run has nothing under way. -/
structure State.OperateLawful (s : State) : Prop where
  operate : s.mode.mode = .operate →
    s.phase = .running ∧ s.licence.loading = false ∧ s.licence.storeState = .protected_
  loading : s.licence.loading = true → ∀ o p tag b, Message.request o p tag b ∉ s.transit
  ticks : s.licence.loading = true → ∀ k n, Message.tick k n ∉ s.transit
  stopped : s.phase ≠ .running → s.transit = [] ∧ s.link.inFlight = none ∧ s.licence.loading = false

/-- In OPERATE every in-service entry of the active plan is admitted (R37). While an activation is pending and no departure
from OPERATE has followed its arming, the store is PROTECTED and every in-service entry of the staged plan is admitted by the
stored table; none is pending while the load runs (R36). -/
structure State.AdmissionLawful (s : State) : Prop where
  operate : s.mode.mode = .operate → ∀ c, (s.plan.active.get c).service = .inService →
    s.licence.admits (s.plan.active.get c) = true
  pending : ∀ x, s.plan.pendingActivation = some x → s.standbyNotices ≤ x.oldNotices →
    ∀ c, (s.plan.staged.get c).service = .inService → s.licence.admits (s.plan.staged.get c) = true
  loading : s.licence.loading = true → s.plan.pendingActivation = none
  armed : ∀ x, s.plan.pendingActivation = some x → s.standbyNotices ≤ x.oldNotices → s.licence.storeState = .protected_

/-! ## The whole part -/

/-- Every law of this file at once. -/
structure State.Lawful (s : State) : Prop where
  authority : s.authority.Lawful
  sequencers : s.SequencersLawful
  ranges : ∀ c, (s.channels.get c).InRange
  entries : s.EntriesFit
  working : s.WorkingFollowsActive
  pending : s.PendingLawful
  link : s.link.Lawful
  timebase : s.timebase.Lawful
  level : s.level.Lawful
  conditions : s.conditions.Lawful
  operate : s.OperateLawful
  admission : s.AdmissionLawful

end Sys2Proof.Machine
end

