-- ==== Sys2Proof/WellFormed.lean ====
section
/-!
DEFINITION. Which command terms stand for something that can happen at the part: the checks an operand must pass.
-/

namespace Sys2Proof

/-- Whether a number lies in a range, both ends included. -/
def inRange (low high n : Nat) : Bool := decide (low ≤ n) && decide (n ≤ high)

/-- Whether two frequencies bound a window (R21). -/
def windowFits (low high : Nat) : Bool :=
  inRange 30000 1000000 low && inRange 30000 1000000 high && decide (low ≤ high)

/-- Whether a licence entry has the form of R21. -/
def licenceEntryFits (e : LicenceEntry) : Bool :=
  windowFits e.txLow e.txHigh && inRange 0 600 e.gainCeiling
    && e.input.all fun w => windowFits w.low w.high

/-- Whether every entry of a licence table has the form of R21: the tables the Licence Store reads back hold entries
of no other form (log entry 16). -/
def licenceTableFits (t : LicenceTable) : Bool := t.toList.all fun slot => slot.all licenceEntryFits

/-- Well-formedness: bytes arrive one or more at a time; a length byte above 60 is above 60; a licence table read
holds licence entries. Every other operand is any value of its type. -/
def Instr.wellFormed : Instr → Bool
  | .requestFrameComplete _ bytes | .identify _ bytes | .readStatus _ bytes => !bytes.isEmpty
  | .lengthByteAbove60 _ length => decide (Config.maxPayload < length.toNat)
  | .startUpLoadEnd t | .programmingCompletion t => licenceTableFits t
  | _ => true

end Sys2Proof
end

