-- ==== Sys2Proof/Certificates/Slice0/Obligations.lean ====
section
/-!
DEFINITION. The statements offered to the provers. A statement about a request supposes that it is the next request of
its port for its owner (Asked); a statement about a notice supposes that the notice is the next one its receiver takes.
The next state is written out from the state with the request or notice taken, so what it does not name is unchanged.
-/

section Obligations

open Sys2Proof Sys2Proof.Machine

/-! ## The machine as a whole -/

/-- A step takes the command at the front of the queue and is exec of it on the state with the queue's rest. With no
command waiting a running part's timebase counts one unit, or does what EPOCH_END does where one unit of the epoch is left;
a part that does not run stays as it is (the model's choice, log entry 5). -/
def Obligations.StepTakesFrontCommand : Prop :=
  (∀ (c : Instr) (cs : List Instr) (s : State), s.pending = c :: cs → step s = exec c { s with pending := cs })
  ∧ (∀ s : State, s.pending = [] →
    (s.phase = .running → s.timebase.position + 1 < s.timebase.prescale * s.timebase.modulo →
      step s = .next { s with timebase := { s.timebase with position := s.timebase.position + 1 } })
    ∧ (s.phase = .running → s.timebase.prescale * s.timebase.modulo ≤ s.timebase.position + 1 →
      step s = exec .epochEnd s)
    ∧ (s.phase ≠ .running → step s = .next s))

/-- Every command in every state answers a next state and leaves the queue of commands alone. The model's choice: that a
command whose event is not due answers a next state at all is log entry 3, and what it answers in states that no event
produces is log entry 22. -/
def Obligations.EveryCommandAnswersNext : Prop :=
  ∀ (c : Instr) (s : State), ∃ t, exec c s = .next t ∧ t.pending = s.pending

/-- The state after reset keeps every law of the blocks. -/
def Obligations.ResetStateIsLawful : Prop := State.reset.Lawful

/-! ## Laws kept by every step -/

/-- At most one holder, at most one reserve, a reserve only beside a holder, Port S never reserve, counts below the
limit while a role is held and 0 while idle. -/
def Obligations.AuthorityLawKeptByEveryStep : Prop :=
  ∀ s t : State, s.authority.Lawful → step s = .next t → t.authority.Lawful

/-- Each channel record keeps the values of its stage, F is above 0 exactly in FOLDBACK, the demanded gain word is
max(G - F, 0), and a channel out of service is OFF. Where the entries have their form, G stays at most 600, F at most 599,
the below-count at most 15 and the demanded words in range. -/
def Obligations.ChannelLawKeptByEveryStep : Prop :=
  (∀ s t : State, s.SequencersLawful → step s = .next t → t.SequencersLawful)
  ∧ (∀ s t : State, s.SequencersLawful → s.EntriesFit → (∀ c, (s.channels.get c).InRange) → step s = .next t →
    ∀ c, (t.channels.get c).InRange)

/-- Every stored, working and sent plan entry has the form the manual gives a stored entry, the ranges of its level fields
included and the multiples of RASTER left out; the level fields of a submitted entry under way hold levels. -/
def Obligations.EntryFormKeptByEveryStep : Prop :=
  ∀ s t : State, s.EntriesFit → step s = .next t → t.EntriesFit

/-- Each working entry equals the active entry of its channel once the entry changes under way have been taken. -/
def Obligations.WorkingEntryFollowsActivePlan : Prop :=
  ∀ s t : State, s.WorkingFollowsActive → step s = .next t → t.WorkingFollowsActive

/-- A pending activation exists only under WHOLE_PLAN, and in OPERATE or before the standby notice of a departure since the
arming has been taken. The model's choice: such a notice is one beyond those the record notes as untaken at the arming, which
all still are (log entry 30). -/
def Obligations.PendingActivationLawKeptByEveryStep : Prop :=
  ∀ s t : State, s.PendingLawful → step s = .next t → t.PendingLawful

/-- The write queue holds at most one record for any target; PRESCALE and MODULO stay in range and the position below the
epoch period. -/
def Obligations.LinkAndTimebaseLawsKeptByEveryStep : Prop :=
  ∀ s t : State, step s = .next t →
    (s.link.Lawful → t.link.Lawful) ∧ (s.timebase.Lawful → t.timebase.Lawful)

/-- At most 48 report records, and every accumulator below its window length with its sum in 24 bits. -/
def Obligations.LevelMonitorLawKeptByEveryStep : Prop :=
  ∀ s t : State, s.level.Lawful → step s = .next t → t.level.Lawful

/-- A slot that is not latched is clear, and each attention line stands at the level its port's mode gives. -/
def Obligations.ConditionTableLawKeptByEveryStep : Prop :=
  ∀ s t : State, s.conditions.Lawful → step s = .next t → t.conditions.Lawful

/-- In OPERATE the store is PROTECTED and the load over, and every in-service entry of the active plan is admitted by the
stored licence table; no request is under way while the load runs, and no tick: every tick finds the load ended. The
model's choice: that a part that does not run has nothing in transit, no write in flight and no load (log entries 2, 13,
15), that in OPERATE a tick of the Plan Controller waits behind the untaken standby notice of a departure that the pending
record outlived (log entry 30), and that the last unit of an epoch waits for the end of the load (log entry 34). -/
def Obligations.OperateLawKeptByEveryStep : Prop :=
  (∀ s t : State, s.OperateLawful → step s = .next t → t.OperateLawful)
  ∧ (∀ s t : State, s.OperateLawful → s.PendingLawful → s.AdmissionLawful → step s = .next t → t.AdmissionLawful)

/-! ## Authority and keepalive -/

/-- CLAIM acts by the roles. The bytes of the DONE are laid out by log entry 20 (the model's choice). -/
def Obligations.ClaimActsByRole : Prop :=
  ∀ (p : Port) (tag : Option Byte) (s s' : State), Asked .authority p tag .claim s s' →
    ((s.authority.get p).role = .idle → s.authority.holder = none →
      exec (.claim p) s = .next (State.answer p tag (.done [1, 0, portCode p, portCodeOr s.authority.reserve])
        { s' with authority := s.authority.set p ⟨.holder, 0⟩ }))
    ∧ ((s.authority.get p).role = .holder →
      exec (.claim p) s = .next (State.answer p tag
        (.done [1, 0, portCodeOr s.authority.holder, portCodeOr s.authority.reserve])
        { s' with authority := s.authority.set p ⟨.holder, 0⟩ }))
    ∧ ((s.authority.get p).role ≠ .holder → s.authority.holder ≠ none →
      exec (.claim p) s = .next (s'.answer p tag (.plain .held .holderPresent)))

/-- RESERVE is examined in six steps, the first that applies giving the outcome. The bytes of the DONE are laid out by log
entry 20 (the model's choice). -/
def Obligations.ReserveExaminedInOrder : Prop :=
  ∀ (p : Port) (tag : Option Byte) (s s' : State), Asked .authority p tag .reserve s s' →
    (p = .s → exec (.reserve p) s = .next (s'.answer p tag (.plain .role .reserveNotPermitted)))
    ∧ (p ≠ .s → (s.authority.get p).role = .reserve →
      exec (.reserve p) s = .next (State.answer p tag
        (.done [2, 0, portCodeOr s.authority.holder, portCodeOr s.authority.reserve])
        { s' with authority := s.authority.set p ⟨.reserve, 0⟩ }))
    ∧ (p ≠ .s → (s.authority.get p).role = .holder →
      exec (.reserve p) s = .next (s'.answer p tag (.plain .state .alreadyHolder)))
    ∧ (p ≠ .s → (s.authority.get p).role = .idle → s.authority.holder = none →
      exec (.reserve p) s = .next (s'.answer p tag (.plain .state .noHolder)))
    ∧ (p ≠ .s → (s.authority.get p).role = .idle → s.authority.holder ≠ none → s.authority.reserve ≠ none →
      exec (.reserve p) s = .next (s'.answer p tag (.plain .held .reservePresent)))
    ∧ (p ≠ .s → (s.authority.get p).role = .idle → s.authority.holder ≠ none → s.authority.reserve = none →
      exec (.reserve p) s = .next (State.answer p tag (.done [2, 0, portCodeOr s.authority.holder, portCode p])
        { s' with authority := s.authority.set p ⟨.reserve, 0⟩ }))

/-- RELEASE acts by the requesting port's role, authority passing to a reserve at the same event. The bytes of the DONE are
laid out by log entry 20 (the model's choice). -/
def Obligations.ReleaseHandsAuthorityToReserve : Prop :=
  ∀ (p : Port) (tag : Option Byte) (s s' : State), s.authority.Lawful → Asked .authority p tag .release s s' →
    (∀ q, (s.authority.get p).role = .holder → (s.authority.get q).role = .reserve →
      exec (.release p) s = .next (State.answer p tag (.done [0, 0, portCode q, 255])
        { s' with
          authority := (s.authority.set p ⟨.idle, 0⟩).set q ⟨.holder, 0⟩
          transit := s'.transit ++ [.occurrence SiteKind.authorityHandover.slot] }))
    ∧ ((s.authority.get p).role = .holder → (∀ q, (s.authority.get q).role ≠ .reserve) →
      exec (.release p) s = .next (State.answer p tag (.done [0, 0, 255, 255])
        { s' with authority := s.authority.set p ⟨.idle, 0⟩ }))
    ∧ ((s.authority.get p).role = .reserve →
      exec (.release p) s = .next (State.answer p tag (.done [0, 0, portCodeOr s.authority.holder, 255])
        { s' with authority := s.authority.set p ⟨.idle, 0⟩ }))
    ∧ ((s.authority.get p).role = .idle →
      exec (.release p) s = .next (s'.answer p tag
        (.done [0, 0, portCodeOr s.authority.holder, portCodeOr s.authority.reserve])))

/-- KEEPALIVE sets the count of a port with a role to 0 and is refused with NO_ROLE from an IDLE port. The bytes of the DONE
are laid out by log entry 20 (the model's choice). -/
def Obligations.KeepaliveRenewsRequestingPort : Prop :=
  ∀ (p : Port) (tag : Option Byte) (s s' : State), Asked .authority p tag .keepalive s s' →
    ((s.authority.get p).role ≠ .idle →
      exec (.keepalive p) s = .next (State.answer p tag
        (.done [(s.authority.get p).role.code, 0, portCodeOr s.authority.holder, portCodeOr s.authority.reserve])
        { s' with authority := s.authority.set p ⟨(s.authority.get p).role, 0⟩ }))
    ∧ ((s.authority.get p).role = .idle →
      exec (.keepalive p) s = .next (s'.answer p tag (.plain .role .noRole)))

/-- The Authority Unit's tick: counts raised, roles lapsed, authority handed over, and what is reported, by the five
rows of the rule. KEEPALIVE_LAPSE is the same event where some port lapses. -/
def Obligations.AuthorityTickRaisesCountsAndLapses : Prop :=
  ∀ (n : Word16) (s s' : State), s.authority.Lawful →
    s.take (Message.isTick .authority) = some (.tick .authority n, s') →
    ∃ t, exec .authorityTick s = .next t
      ∧ t = { s' with authority := t.authority, transit := t.transit }
      ∧ t.authority.limit = s.authority.limit
      ∧ (∀ p, (s.authority.get p).role = .idle → t.authority.get p = s.authority.get p)
      ∧ (∀ p, (s.authority.get p).role ≠ .idle → s.authority.limit ≤ (s.authority.get p).count + 1 →
          t.authority.get p = ⟨.idle, 0⟩)
      ∧ (∀ p, (s.authority.get p).role = .holder → (s.authority.get p).count + 1 < s.authority.limit →
          t.authority.get p = ⟨.holder, (s.authority.get p).count + 1⟩)
      ∧ (∀ p, (s.authority.get p).role = .reserve → (s.authority.get p).count + 1 < s.authority.limit →
          (s.authority.Lapsing .holder → t.authority.get p = ⟨.holder, 0⟩)
          ∧ (¬ s.authority.Lapsing .holder → t.authority.get p = ⟨.reserve, (s.authority.get p).count + 1⟩))
      ∧ (¬ s.authority.Lapsing .holder → ¬ s.authority.Lapsing .reserve → t.transit = s'.transit)
      ∧ (s.authority.Lapsing .holder → (∀ p, (s.authority.get p).role ≠ .reserve) →
          t.transit = s'.transit ++ [.occurrence SiteKind.authorityLapsed.slot])
      ∧ (s.authority.Lapsing .holder → s.authority.Surviving .reserve →
          t.transit = s'.transit
            ++ [.occurrence SiteKind.authorityLapsed.slot, .occurrence SiteKind.authorityHandover.slot])
      ∧ (s.authority.Lapsing .holder → s.authority.Lapsing .reserve →
          t.transit = s'.transit
            ++ [.occurrence SiteKind.authorityLapsed.slot, .occurrence SiteKind.reserveLapsed.slot])
      ∧ (¬ s.authority.Lapsing .holder → s.authority.Lapsing .reserve →
          t.transit = s'.transit ++ [.occurrence SiteKind.reserveLapsed.slot])
      ∧ (s.authority.Lapsing .holder ∨ s.authority.Lapsing .reserve →
          exec .keepaliveLapse s = exec .authorityTick s)

/-- CONFIGURE and READ CONFIG of KEEPALIVE_LIMIT. -/
def Obligations.KeepaliveLimitConfiguredAndRead : Prop :=
  ∀ (p : Port) (tag : Option Byte) (s s' : State),
    (∀ v, Asked .authority p tag (.configure .keepaliveLimit [v]) s s' →
      (¬ Holds s p → exec (.configureKeepaliveLimit p) s = .next (s'.answer p tag (.plain .role .none_)))
      ∧ (Holds s p → v.toNat < 2 →
        exec (.configureKeepaliveLimit p) s = .next (s'.answer p tag (.plain .range .keepaliveLimit)))
      ∧ (Holds s p → 2 ≤ v.toNat →
        exec (.configureKeepaliveLimit p) s = .next (State.answer p tag (.done [0x03, v])
          { s' with
            authority :=
              { s.authority.mapRecords (fun r => if r.role = .idle then r else ⟨r.role, 0⟩) with limit := v.toNat } })))
    ∧ (Asked .authority p tag (.readConfig .keepaliveLimit []) s s' →
      exec (.readConfigKeepaliveLimit p) s
        = .next (s'.answer p tag (.done [0x03, BitVec.ofNat 8 s.authority.limit])))

/-! ## The channel plan -/

/-- The entry checks pass exactly the entries that meet all of them, and the plan checks exactly the tables that meet
all four; the first check that fails, in the order of its table, gives the detail, and for a plan check the
lowest-numbered in-service channel that fails it. An entry that passes is stored field by field. -/
def Obligations.ChecksPassExactlyValidEntriesAndTables : Prop :=
  (∀ (raster : Nat) (c : Chan) (r : RawEntry),
    entryFault raster c r = none ↔
      (r.service = 0 ∨ r.service = 1)
      ∧ (30000 ≤ r.rxFreq ∧ r.rxFreq ≤ 1000000 ∧ r.rxFreq % raster = 0)
      ∧ (30000 ≤ r.txFreq ∧ r.txFreq ≤ 1000000 ∧ r.txFreq % raster = 0)
      ∧ r.txFreq ≠ r.rxFreq ∧ r.gainTarget ≤ 600
      ∧ (r.gainMode = 0 ∧ r.rampRate = none
          ∨ r.gainMode = 1 ∧ ∃ k, r.rampRate = some k ∧ 1 ≤ k ∧ k ≤ 50)
      ∧ r.squelchClose ≤ r.squelchOpen ∧ (1 ≤ r.squelchHoldoff ∧ r.squelchHoldoff ≤ 16)
      ∧ (∀ k, r.squelchSource = some k → k ≤ 7 ∧ k ≠ c.val))
  ∧ (∀ (raster : Nat) (t : PlanTable),
    planFault raster t = none ↔
      (∀ c d, (t.get c).service = .inService → (t.get d).service = .inService → c ≠ d →
        (t.get c).txFreq ≠ (t.get d).txFreq)
      ∧ (∀ c d, (t.get c).service = .inService → (t.get d).service = .inService →
        (t.get c).txFreq ≠ (t.get d).rxFreq)
      ∧ (∀ c d, (t.get c).service = .inService → (t.get c).squelchSource = some d →
        (t.get d).service = .inService ∧ (t.get d).squelchSource = none)
      ∧ (∀ c, (t.get c).service = .inService → (t.get c).rxFreq % raster = 0 ∧ (t.get c).txFreq % raster = 0))
  ∧ (∀ (raster : Nat) (c : Chan) (r : RawEntry),
    entryFault raster c r =
      (([ (decide (r.service ≤ 1), .service),
          (decide (30000 ≤ r.rxFreq ∧ r.rxFreq ≤ 1000000 ∧ r.rxFreq % raster = 0), .rxFreq),
          (decide (30000 ≤ r.txFreq ∧ r.txFreq ≤ 1000000 ∧ r.txFreq % raster = 0), .txFreq),
          (decide (r.txFreq ≠ r.rxFreq), .txFreq),
          (decide (r.gainTarget ≤ 600), .gainTarget),
          (decide (r.gainMode ≤ 1), .gainMode),
          (decide (r.rampRate.isSome ↔ r.gainMode = 1), .rampRate),
          (r.rampRate.all fun k => decide (1 ≤ k ∧ k ≤ 50), .rampRate),
          (decide (r.squelchClose ≤ r.squelchOpen), .squelchOpen),
          (decide (1 ≤ r.squelchHoldoff ∧ r.squelchHoldoff ≤ 16), .squelchHoldoff),
          (r.squelchSource.all fun k => decide (k ≤ 7), .squelchSource),
          (decide (r.squelchSource ≠ some c.val), .squelchSource)] : List (Bool × Detail)).find? fun x => !x.1).map
        Prod.snd
    ∧ (entryFault raster c r = none → r.toEntry.raw = r))
  ∧ (∀ (raster : Nat) (t : PlanTable),
    planFault raster t =
      ([ (.txClash, fun c => decide (∃ d, d ≠ c ∧ (t.get d).service = .inService ∧ (t.get d).txFreq = (t.get c).txFreq)),
         (.rxTxClash, fun c => decide (∃ d, (t.get d).service = .inService ∧ (t.get d).rxFreq = (t.get c).txFreq)),
         (.sourceInvalid, fun c => decide (∃ d, (t.get c).squelchSource = some d
           ∧ ((t.get d).service = .outOfService ∨ (t.get d).squelchSource ≠ none))),
         (.offRaster, fun c => decide ((t.get c).rxFreq % raster ≠ 0 ∨ (t.get c).txFreq % raster ≠ 0))]
        : List (Detail × (Chan → Bool))).findSome? fun x =>
          ((List.finRange 8).find? fun c => decide ((t.get c).service = .inService) && x.2 c).map fun c => (x.1, c))

/-- STAGE ENTRY under WHOLE_PLAN: examined in order, then the staged plan alone is written. -/
def Obligations.StageEntryWritesStagedPlan : Prop :=
  ∀ (p : Port) (tag : Option Byte) (n : Nat) (r : RawEntry) (s s' : State),
    Asked .plan p tag (.stageEntry n r) s s' →
    (¬ Holds s p → exec (.stageEntry p) s = .next (s'.answer p tag (.plain .role .none_)))
    ∧ (Holds s p → s.plan.pendingActivation.isSome →
      exec (.stageEntry p) s = .next (s'.answer p tag (.plain .state .activationPending)))
    ∧ (Holds s p → s.plan.pendingActivation = none → 8 ≤ n →
      exec (.stageEntry p) s = .next (s'.answer p tag (.plain .range .channel)))
    ∧ (∀ (c : Chan) (d : Detail), Holds s p → s.plan.pendingActivation = none → n = c.val →
      entryFault s.plan.raster c r = some d →
      exec (.stageEntry p) s = .next (s'.answer p tag (.refused .range d (BitVec.ofNat 8 c.val))))
    ∧ (∀ c : Chan, Holds s p → s.plan.pendingActivation = none → n = c.val →
      entryFault s.plan.raster c r = none → s.plan.applyMode = .wholePlan →
      exec (.stageEntry p) s = .next (State.answer p tag (.done [])
        { s' with plan := { s.plan with staged := put s.plan.staged c r.toEntry } }))

/-- STAGE ENTRY under PER_ENTRY: both tables written and the revision raised in STANDBY; in OPERATE only after plan
validation of the substituted active plan and with the channel out of TUNING and SETTLING. -/
def Obligations.StageEntryPerEntryWritesBothTables : Prop :=
  ∀ (p : Port) (tag : Option Byte) (c : Chan) (r : RawEntry) (s s' : State),
    Asked .plan p tag (.stageEntry c.val r) s s' → Holds s p → s.plan.pendingActivation = none →
    entryFault s.plan.raster c r = none → s.plan.applyMode = .perEntry →
    (s.mode.mode = .standby ∨ s.mode.mode = .operate ∧ s.validate (put s.plan.active c r.toEntry) = none
        ∧ (s.channels.get c).state ≠ .tuning ∧ (s.channels.get c).state ≠ .settling →
      exec (.stageEntry p) s = .next (State.answer p tag (.done [])
        { s' with
          plan :=
            { s.plan with
              staged := put s.plan.staged c r.toEntry
              active := put s.plan.active c r.toEntry
              revision := s.plan.revision + 1 }
          transit := s'.transit
            ++ (if s.plan.active.get c = r.toEntry then [] else [.entryChange c r.toEntry]) }))
    ∧ (∀ x, s.mode.mode = .operate → s.validate (put s.plan.active c r.toEntry) = some x →
      exec (.stageEntry p) s = .next (s'.answer p tag x))
    ∧ (s.mode.mode = .operate → s.validate (put s.plan.active c r.toEntry) = none →
      (s.channels.get c).state = .tuning ∨ (s.channels.get c).state = .settling →
      exec (.stageEntry p) s = .next (s'.answer p tag (.refused .notReady .sequencerBusy (BitVec.ofNat 8 c.val))))

/-- STAGE CLEAR and STAGE COPY: examined in order, then the staged plan alone is written. The default entry is written
out. -/
def Obligations.StageClearAndCopyWriteStagedPlan : Prop :=
  PlanEntry.default
    = { service := .outOfService, rxFreq := 30000, txFreq := 30025, gainTarget := 0, gainMode := .step
        rampRate := none, squelchOpen := 0, squelchClose := 0, squelchHoldoff := 4, squelchSource := none
        reflLimit := none }
  ∧ ∀ (p : Port) (tag : Option Byte) (s s' : State) (i : Instr) (q : Request) (table : PlanTable),
    i = .stageClear p ∧ q = .stageClear ∧ (∀ c, table.get c = PlanEntry.default)
      ∨ i = .stageCopy p ∧ q = .stageCopy ∧ table = s.plan.active →
    Asked .plan p tag q s s' →
    (¬ Holds s p → exec i s = .next (s'.answer p tag (.plain .role .none_)))
    ∧ (Holds s p → s.plan.pendingActivation.isSome →
      exec i s = .next (s'.answer p tag (.plain .state .activationPending)))
    ∧ (Holds s p → s.plan.pendingActivation = none → s.plan.applyMode = .perEntry → s.mode.mode = .operate →
      exec i s = .next (s'.answer p tag (.plain .state .applyMode)))
    ∧ (Holds s p → s.plan.pendingActivation = none → s.plan.applyMode = .wholePlan ∨ s.mode.mode = .standby →
      exec i s = .next (State.answer p tag (.done []) { s' with plan := { s.plan with staged := table } }))

/-- CONFIGURE and READ CONFIG of APPLY_MODE and RASTER. -/
def Obligations.ApplyModeAndRasterConfigured : Prop :=
  ∀ (p : Port) (tag : Option Byte) (s s' : State),
    (∀ v, Asked .plan p tag (.configure .applyMode [v]) s s' →
      (¬ Holds s p → exec (.configureApplyMode p) s = .next (s'.answer p tag (.plain .role .none_)))
      ∧ (Holds s p → s.plan.pendingActivation.isSome →
        exec (.configureApplyMode p) s = .next (s'.answer p tag (.plain .state .activationPending)))
      ∧ (Holds s p → s.plan.pendingActivation = none → v ≠ 0 → v ≠ 1 →
        exec (.configureApplyMode p) s = .next (s'.answer p tag (.plain .range .value)))
      ∧ (∀ m, Holds s p → s.plan.pendingActivation = none → v = 0 ∧ m = .wholePlan ∨ v = 1 ∧ m = .perEntry →
        exec (.configureApplyMode p) s = .next (State.answer p tag (.done [0x01, v])
          { s' with plan := { s.plan with applyMode := m } })))
    ∧ (∀ hi lo, Asked .plan p tag (.configure .raster [hi, lo]) s s' →
      (¬ Holds s p → exec (.configureRaster p) s = .next (s'.answer p tag (.plain .role .none_)))
      ∧ (Holds s p → s.mode.mode = .operate →
        exec (.configureRaster p) s = .next (s'.answer p tag (.plain .mode .none_)))
      ∧ (Holds s p → s.mode.mode = .standby → 256 * hi.toNat + lo.toNat = 0 ∨ 1000 < 256 * hi.toNat + lo.toNat →
        exec (.configureRaster p) s = .next (s'.answer p tag (.plain .range .value)))
      ∧ (Holds s p → s.mode.mode = .standby → 1 ≤ 256 * hi.toNat + lo.toNat → 256 * hi.toNat + lo.toNat ≤ 1000 →
        exec (.configureRaster p) s = .next (State.answer p tag (.done [0x02, hi, lo])
          { s' with plan := { s.plan with raster := 256 * hi.toNat + lo.toNat } })))
    ∧ (Asked .plan p tag (.readConfig .applyMode []) s s' →
      exec (.readConfigApplyMode p) s = .next (s'.answer p tag (.done [0x01, s.plan.applyMode.code])))
    ∧ (Asked .plan p tag (.readConfig .raster []) s s' →
      exec (.readConfigRaster p) s = .next (s'.answer p tag (.done (0x02 :: natBytes 2 s.plan.raster))))

/-- The Plan Controller's initialize notice: a pending record abandoned first, then every default, with an entry change
to each channel whose active entry differed. -/
def Obligations.PlanInitializeRestoresDefaults : Prop :=
  ∀ s s' : State, s.take (Message.isInitNotice .planController) = some (.initNotice .planController, s') →
    ∃ t, exec .planControllerInitialize s = .next t
      ∧ t = { s' with plan := t.plan, transit := t.transit }
      ∧ (∀ c, t.plan.staged.get c = PlanEntry.default) ∧ (∀ c, t.plan.active.get c = PlanEntry.default)
      ∧ t.plan.number = 0 ∧ t.plan.revision = 0 ∧ t.plan.pendingActivation = none
      ∧ t.plan.applyMode = .wholePlan ∧ t.plan.raster = 25
      ∧ t.transit = s'.transit
          ++ (if s.plan.pendingActivation.isSome then [.occurrence SiteKind.activationAbandoned.slot] else [])
          ++ ((List.finRange 8).filter fun c => decide (s.plan.active.get c ≠ PlanEntry.default)).map
              (fun c => .entryChange c PlanEntry.default)
          ++ [.initReport .planController]

/-! ## Plan activation -/

/-- The target of an arming: NEXT is the epoch after the counter; an epoch number passes 1 to 4,096 epochs ahead. -/
def Obligations.TargetLiesWithinArmWindow : Prop :=
  ∀ (c epoch : Word16) (kind : Nat),
    targetEpoch c 0 epoch = some (c + 1)
    ∧ (1 ≤ (epoch - c).toNat → (epoch - c).toNat ≤ 4096 → targetEpoch c 1 epoch = some epoch)
    ∧ (epoch = c ∨ 4096 < (epoch - c).toNat → targetEpoch c 1 epoch = none)
    ∧ (2 ≤ kind → targetEpoch c kind epoch = none)

/-- ARM ACTIVATION is examined in order; one that passes creates the pending record and changes nothing else. The model's
choice: the record notes how many standby notices are untaken at the arming (log entry 30). -/
def Obligations.ArmActivationCreatesPendingRecord : Prop :=
  ∀ (p : Port) (tag : Option Byte) (number epoch : Word16) (kind : Nat) (s s' : State),
    Asked .plan p tag (.armActivation number kind epoch) s s' →
    (¬ Holds s p → exec (.armActivation p) s = .next (s'.answer p tag (.plain .role .none_)))
    ∧ (Holds s p → s.plan.applyMode = .perEntry →
      exec (.armActivation p) s = .next (s'.answer p tag (.plain .state .applyMode)))
    ∧ (Holds s p → s.plan.applyMode = .wholePlan → s.mode.mode = .standby →
      exec (.armActivation p) s = .next (s'.answer p tag (.plain .mode .none_)))
    ∧ (Holds s p → s.plan.applyMode = .wholePlan → s.mode.mode = .operate → s.plan.pendingActivation.isSome →
      exec (.armActivation p) s = .next (s'.answer p tag (.plain .state .activationPending)))
    ∧ (Holds s p → s.plan.applyMode = .wholePlan → s.mode.mode = .operate → s.plan.pendingActivation = none →
      (number = 0 → exec (.armActivation p) s = .next (s'.answer p tag (.plain .range .planNumber)))
      ∧ (number ≠ 0 → targetEpoch s.timebase.counter kind epoch = none →
        exec (.armActivation p) s = .next (s'.answer p tag (.plain .range .target)))
      ∧ (∀ t x, number ≠ 0 → targetEpoch s.timebase.counter kind epoch = some t →
        s.validate s.plan.staged = some x → exec (.armActivation p) s = .next (s'.answer p tag x))
      ∧ (∀ t, number ≠ 0 → targetEpoch s.timebase.counter kind epoch = some t →
        s.validate s.plan.staged = none →
        exec (.armActivation p) s = .next (State.answer p tag
          (.done (natBytes 2 number.toNat ++ natBytes 2 t.toNat))
          { s' with plan := { s.plan with pendingActivation := some ⟨number, t, none, s.transit.count .standbyNotice⟩ } })))

/-- DISARM removes the pending record and returns its plan number and target; the standby notice removes it with
ACTIVATION_ABANDONED and has no other effect. -/
def Obligations.DisarmAndStandbyNoticeRemovePendingRecord : Prop :=
  (∀ (p : Port) (tag : Option Byte) (s s' : State), Asked .plan p tag .disarm s s' →
    (¬ Holds s p → exec (.disarm p) s = .next (s'.answer p tag (.plain .role .none_)))
    ∧ (Holds s p → s.plan.pendingActivation = none →
      exec (.disarm p) s = .next (s'.answer p tag (.plain .state .nothingPending)))
    ∧ (∀ x, Holds s p → s.plan.pendingActivation = some x →
      exec (.disarm p) s = .next (State.answer p tag
        (.done (natBytes 2 x.planNumber.toNat ++ natBytes 2 x.target.toNat))
        { s' with plan := { s.plan with pendingActivation := none } })))
  ∧ (∀ s s' : State, s.take Message.isStandbyNotice = some (.standbyNotice, s') →
    (s.plan.pendingActivation = none → exec .standbyNotice s = .next s')
    ∧ (s.plan.pendingActivation.isSome →
      exec .standbyNotice s = .next
        { s' with
          plan := { s.plan with pendingActivation := none }
          transit := s'.transit ++ [.occurrence SiteKind.activationAbandoned.slot] }))

/-- ACTIVATE NOW is examined in order; one that passes copies the staged plan, sets number and revision, reports
ACTIVATION_DONE and sends an entry change to each channel whose entry differs. -/
def Obligations.ActivateNowCarriesOutActivation : Prop :=
  ∀ (p : Port) (tag : Option Byte) (number : Word16) (s s' : State),
    Asked .plan p tag (.activateNow number) s s' →
    (¬ Holds s p → exec (.activateNow p) s = .next (s'.answer p tag (.plain .role .none_)))
    ∧ (Holds s p → s.plan.applyMode = .perEntry →
      exec (.activateNow p) s = .next (s'.answer p tag (.plain .state .applyMode)))
    ∧ (Holds s p → s.plan.applyMode = .wholePlan → s.plan.pendingActivation.isSome →
      exec (.activateNow p) s = .next (s'.answer p tag (.plain .state .activationPending)))
    ∧ (Holds s p → s.plan.applyMode = .wholePlan → s.plan.pendingActivation = none →
      (number = 0 → exec (.activateNow p) s = .next (s'.answer p tag (.plain .range .planNumber)))
      ∧ (∀ x, number ≠ 0 → s.validate s.plan.staged = some x →
        exec (.activateNow p) s = .next (s'.answer p tag x))
      ∧ (∀ c, number ≠ 0 → s.validate s.plan.staged = none → s.mode.mode = .operate →
        (s.channels.get c).state.retuning = true → (∀ d < c, (s.channels.get d).state.retuning = false) →
        exec (.activateNow p) s
          = .next (s'.answer p tag (.refused .notReady .sequencerBusy (BitVec.ofNat 8 c.val))))
      ∧ (number ≠ 0 → s.validate s.plan.staged = none →
        s.mode.mode = .standby ∨ (∀ c, (s.channels.get c).state ≠ .tuning ∧ (s.channels.get c).state ≠ .settling) →
        exec (.activateNow p) s = .next (State.answer p tag
          (.done (natBytes 2 number.toNat ++ natBytes 2 (s.plan.revision + 1).toNat))
          { s' with
            plan := { s.plan with active := s.plan.staged, number := number, revision := s.plan.revision + 1 }
            transit := s'.transit ++ [.occurrence SiteKind.activationDone.slot]
              ++ ((List.finRange 8).filter fun c =>
                    decide (s.plan.active.get c ≠ s.plan.staged.get c)).map
                  (fun c => .entryChange c (s.plan.staged.get c)) })))

/-- The Plan Controller's tick: nothing without a record; abandonment in STANDBY; the target test and the deferral
tests in OPERATE. ACTIVATION_ABANDONED is the tick that gives up after 32 deferrals. The model's choice: it is a case of
the tick (log entry 4), and in OPERATE a tick waits behind the untaken standby notice of a departure that the pending record
outlived, not behind a notice older than the record (log entry 30). -/
def Obligations.PlanTickTestsAndDefersActivation : Prop :=
  ∀ (n : Word16) (s s' : State), s.take (Message.isTick .plan) = some (.tick .plan n, s') →
    (s.plan.pendingActivation = none → exec .planControllerTick s = .next s')
    ∧ (∀ x, s.plan.pendingActivation = some x → s.mode.mode = .standby →
      exec .planControllerTick s = .next
        { s' with
          plan := { s.plan with pendingActivation := none }
          transit := s'.transit ++ [.occurrence SiteKind.activationAbandoned.slot] })
    ∧ (∀ x, s.plan.pendingActivation = some x → s.mode.mode = .operate → x.oldNotices < s.transit.count .standbyNotice →
      exec .planControllerTick s = .next s ∧ exec .activationAbandoned s = .next s)
    ∧ (∀ x, s.plan.pendingActivation = some x → s.mode.mode = .operate → s.transit.count .standbyNotice ≤ x.oldNotices →
      x.overdue = none → n ≠ x.target →
      exec .planControllerTick s = .next s')
    ∧ (∀ x, s.plan.pendingActivation = some x → s.mode.mode = .operate → s.transit.count .standbyNotice ≤ x.oldNotices →
      x.overdue = none ∧ n = x.target ∨ x.overdue.isSome →
      (∀ c, (s.channels.get c).state ≠ .tuning ∧ (s.channels.get c).state ≠ .settling) →
      exec .planControllerTick s = .next
        { s' with
          plan :=
            { s.plan with
              active := s.plan.staged
              number := x.planNumber
              revision := s.plan.revision + 1
              pendingActivation := none }
          transit := s'.transit ++ [.occurrence SiteKind.activationDone.slot]
            ++ ((List.finRange 8).filter fun c =>
                  decide (s.plan.active.get c ≠ s.plan.staged.get c)).map
                (fun c => .entryChange c (s.plan.staged.get c)) })
    ∧ (∀ x c, s.plan.pendingActivation = some x → s.mode.mode = .operate → s.transit.count .standbyNotice ≤ x.oldNotices →
      (s.channels.get c).state = .tuning ∨ (s.channels.get c).state = .settling →
      (x.overdue = none → n = x.target →
        exec .planControllerTick s = .next
          { s' with plan := { s.plan with pendingActivation := some { x with overdue := some 0 } } })
      ∧ (∀ k, x.overdue = some k → k + 1 < 32 →
        exec .planControllerTick s = .next
          { s' with plan := { s.plan with pendingActivation := some { x with overdue := some (k + 1) } } })
      ∧ (∀ k, x.overdue = some k → k + 1 = 32 →
        exec .planControllerTick s = .next
          { s' with
            plan := { s.plan with pendingActivation := none }
            transit := s'.transit ++ [.occurrence SiteKind.activationAbandoned.slot] }
        ∧ exec .activationAbandoned s = exec .planControllerTick s))

/-! ## The licence -/

/-- Licence admission: what admits an entry, why one fails, and which channel validation names. A table that fails a plan
check is refused with REFUSED_PLAN, the check and its channel, before licence admission. -/
def Obligations.LicenceAdmissionJudgesInServiceEntries : Prop :=
  (∀ (l : LicenceStore) (e : PlanEntry),
    l.admits e = true ↔ l.storeState = .protected_ ∧ ∃ i x, l.stored.get i = some x
      ∧ x.txLow ≤ e.txFreq ∧ e.txFreq ≤ x.txHigh
      ∧ (∀ w, x.input = some w → w.low ≤ e.rxFreq ∧ e.rxFreq ≤ w.high)
      ∧ e.gainTarget ≤ x.gainCeiling)
  ∧ (∀ (l : LicenceStore) (e : PlanEntry),
    l.reason e = .gainCeiling ∧ l.storeState = .protected_ ∧ (∃ i x, l.stored.get i = some x
        ∧ x.txLow ≤ e.txFreq ∧ e.txFreq ≤ x.txHigh
        ∧ ∀ w, x.input = some w → w.low ≤ e.rxFreq ∧ e.rxFreq ≤ w.high)
      ∨ l.reason e = .noWindow ∧ (l.storeState ≠ .protected_ ∨ ∀ i x, l.stored.get i = some x →
        ¬ (x.txLow ≤ e.txFreq ∧ e.txFreq ≤ x.txHigh
          ∧ ∀ w, x.input = some w → w.low ≤ e.rxFreq ∧ e.rxFreq ≤ w.high)))
  ∧ (∀ (s : State) (t : PlanTable), planFault s.plan.raster t = none →
    (s.validate t = none ↔ ∀ c, (t.get c).service = .inService → s.licence.admits (t.get c) = true)
    ∧ (∀ c, (t.get c).service = .inService → s.licence.admits (t.get c) = false →
      (∀ d < c, (t.get d).service = .inService → s.licence.admits (t.get d) = true) →
      s.validate t = some (.refused .licence (s.licence.reason (t.get c)) (BitVec.ofNat 8 c.val))))
  ∧ (∀ (s : State) (t : PlanTable) (d : Detail) (c : Chan), planFault s.plan.raster t = some (d, c) →
    s.validate t = some (.refused .plan d (BitVec.ofNat 8 c.val)))

/-- LICENCE ENTRY from the holder in STANDBY: the working slot written or emptied, or the first failing check named, in the
order of the checks; a record that meets every check passes and is stored field by field. -/
def Obligations.LicenceEntryWritesWorkingSlot : Prop :=
  (∀ r : RawLicence,
    licenceFault r =
      (([ (decide (30000 ≤ r.txLow ∧ r.txLow ≤ 1000000), .txLow),
          (decide (30000 ≤ r.txHigh ∧ r.txHigh ≤ 1000000 ∧ r.txLow ≤ r.txHigh), .txHigh),
          (decide (r.gainCeiling ≤ 600), .ceiling),
          (decide (r.rxLow.isSome ↔ r.rxHigh.isSome), .rxWindow),
          (r.rxLow.all fun l => decide (30000 ≤ l ∧ l ≤ 1000000), .rxLow),
          (r.rxHigh.all fun h => decide (30000 ≤ h ∧ h ≤ 1000000 ∧ ∀ l ∈ r.rxLow, l ≤ h), .rxHigh)]
        : List (Bool × Detail)).find? fun x => !x.1).map Prod.snd
    ∧ (licenceFault r = none → rawLicence r.toEntry = r))
  ∧ ∀ (p : Port) (tag : Option Byte) (n : Nat) (x : Option RawLicence) (s s' : State),
    Asked .licence p tag (.licenceEntry n x) s s' → Holds s p → s.mode.mode = .standby →
    (s.licence.storeState = .protected_ ∨ s.licence.storeState = .incomplete →
      exec (.licenceEntry p) s = .next (s'.answer p tag (.plain .state .storeNotBlank)))
    ∧ (s.licence.storeState = .blank → 16 ≤ n →
      exec (.licenceEntry p) s = .next (s'.answer p tag (.plain .range .slot)))
    ∧ (∀ i : Fin 16, s.licence.storeState = .blank → n = i.val →
      (x = none →
        exec (.licenceEntry p) s = .next (State.answer p tag (.done [])
          { s' with licence := { s.licence with working := put s.licence.working i none } }))
      ∧ (∀ r d, x = some r → licenceFault r = some d →
        exec (.licenceEntry p) s = .next (s'.answer p tag (.refused .range d (BitVec.ofNat 8 n))))
      ∧ (∀ r, x = some r → licenceFault r = none →
        exec (.licenceEntry p) s = .next (State.answer p tag (.done [])
          { s' with licence := { s.licence with working := put s.licence.working i (some r.toEntry) } })
        ∧ licenceEntryFits r.toEntry = true))

/-- The licence requests are refused by role, then by mode, then while an operation is in flight; LICENCE COMMIT and
LICENCE ERASE that pass begin their operations. -/
def Obligations.LicenceCommitAndEraseBeginOperations : Prop :=
  (∀ (p : Port) (tag : Option Byte) (s s' : State) (i : Instr) (q : Request),
    i = .licenceEntry p ∧ (∃ slot e, q = .licenceEntry slot e) ∨ i = .licenceCommit p ∧ q = .licenceCommit
      ∨ i = .licenceErase p ∧ q = .licenceErase →
    Asked .licence p tag q s s' →
    (¬ Holds s p → exec i s = .next (s'.answer p tag (.plain .role .none_)))
    ∧ (Holds s p → s.mode.mode = .operate → exec i s = .next (s'.answer p tag (.plain .mode .none_)))
    ∧ (Holds s p → s.mode.mode = .standby →
      s.licence.storeState = .programming ∨ s.licence.storeState = .erasing →
      exec i s = .next (s'.answer p tag (.plain .busy .storeInFlight))))
  ∧ (∀ (p : Port) (tag : Option Byte) (s s' : State), Holds s p → s.mode.mode = .standby →
    (Asked .licence p tag .licenceCommit s s' →
      (s.licence.storeState = .protected_ ∨ s.licence.storeState = .incomplete →
        exec (.licenceCommit p) s = .next (s'.answer p tag (.plain .state .storeNotBlank)))
      ∧ (s.licence.storeState = .blank → (∀ i, s.licence.working.get i = none) →
        exec (.licenceCommit p) s = .next (s'.answer p tag (.plain .state .workingEmpty)))
      ∧ (∀ i, s.licence.storeState = .blank → s.licence.working.get i ≠ none →
        exec (.licenceCommit p) s = .next (State.answer p tag .accepted
          { s' with licence := { s.licence with storeState := .programming } })))
    ∧ (Asked .licence p tag .licenceErase s s' →
      s.licence.storeState ≠ .programming → s.licence.storeState ≠ .erasing →
      exec (.licenceErase p) s = .next (State.answer p tag .accepted
        { s' with licence := { s.licence with storeState := .erasing } })))

/-- READ ENTRY and READ LICENCE return one place of the named table and change no state; READ LICENCE is refused while
an operation is in flight, after its range checks. The plan entry record and the licence entry record are written out
byte by byte, and a request that carries one back parses to its fields. -/
def Obligations.ReadEntryAndReadLicenceReturnNamedPlace : Prop :=
  (∀ (p : Port) (tag : Option Byte) (table n : Nat) (s s' : State),
    Asked .plan p tag (.readEntry table n) s s' →
    (2 ≤ table → exec (.readEntry p) s = .next (s'.answer p tag (.plain .range .table)))
    ∧ (table < 2 → 8 ≤ n → exec (.readEntry p) s = .next (s'.answer p tag (.plain .range .channel)))
    ∧ (∀ c : Chan, table < 2 → n = c.val →
      exec (.readEntry p) s = .next (s'.answer p tag (.done
        (natBytes 1 table ++ natBytes 1 n ++ natBytes 2 s.plan.number.toNat ++ natBytes 2 s.plan.revision.toNat
          ++ encodeEntry ((if table = 0 then s.plan.staged else s.plan.active).get c))))))
  ∧ (∀ (p : Port) (tag : Option Byte) (table n : Nat) (s s' : State),
    Asked .licence p tag (.readLicence table n) s s' →
    (2 ≤ table → exec (.readLicence p) s = .next (s'.answer p tag (.plain .range .table)))
    ∧ (table < 2 → 16 ≤ n → exec (.readLicence p) s = .next (s'.answer p tag (.plain .range .slot)))
    ∧ (table < 2 → n < 16 → s.licence.storeState = .programming ∨ s.licence.storeState = .erasing →
      exec (.readLicence p) s = .next (s'.answer p tag (.plain .busy .storeInFlight)))
    ∧ (∀ i : Fin 16, table < 2 → n = i.val →
      s.licence.storeState ≠ .programming → s.licence.storeState ≠ .erasing →
      exec (.readLicence p) s = .next (s'.answer p tag (.done
        (natBytes 1 table ++ natBytes 1 n ++ [s.licence.storeState.code]
          ++ encodeLicence ((if table = 0 then s.licence.stored else s.licence.working).get i))))))
  ∧ (∀ e : PlanEntry,
    encodeEntry e =
      [if e.service = .inService then 1 else 0] ++ word3 e.rxFreq ++ word3 e.txFreq ++ word2 e.gainTarget
        ++ [if e.gainMode = .ramp then 1 else 0,
          BitVec.ofNat 8 (flag e.rampRate.isSome 1 + flag e.squelchSource.isSome 2 + flag e.reflLimit.isSome 4),
          BitVec.ofNat 8 (e.rampRate.getD 0)]
        ++ level2 e.squelchOpen ++ level2 e.squelchClose ++ [BitVec.ofNat 8 e.squelchHoldoff]
        ++ [match e.squelchSource with | some d => BitVec.ofNat 8 d.val | none => 0]
        ++ level2 (e.reflLimit.getD 0)
    ∧ (e.Fits → ∀ n : Byte,
      parseRequest 0x20 (n :: encodeEntry e) = .request .plan (.stageEntry n.toNat e.raw)))
  ∧ encodeLicence none = List.replicate 15 0
  ∧ (∀ x : LicenceEntry,
    encodeLicence (some x) =
      [BitVec.ofNat 8 (1 + flag x.input.isSome 2 + flag x.input.isSome 4)] ++ word3 x.txLow ++ word3 x.txHigh
        ++ word2 x.gainCeiling
        ++ (match x.input with | some w => word3 w.low ++ word3 w.high | none => [0, 0, 0, 0, 0, 0])
    ∧ (licenceEntryFits x = true → ∀ n : Byte,
      parseRequest 0x60 (n :: encodeLicence (some x)) = .request .licence (.licenceEntry n.toNat (some (rawLicence x)))))

/-- The completions of programming and erasing; the end of the start-up load sets the store state from the recorded
state and the check value, and reports LICENCE_FAILED where it is INCOMPLETE. The model's choice: the tables read are
operands and the check value is opaque (log entry 16). -/
def Obligations.LicenceOperationsAndLoadComplete : Prop :=
  (∀ (read : LicenceTable) (s : State), s.phase = .running → s.licence.loading = false →
    (s.licence.storeState = .programming → read = s.licence.working →
      exec (.programmingCompletion read) s = .next
        { s with
          licence :=
            { s.licence with
              storeState := .protected_
              stored := s.licence.working
              checkValue := Config.checkValue s.licence.working }
          transit := s.transit ++ [.occurrence SiteKind.licenceDone.slot] })
    ∧ (s.licence.storeState = .programming → read ≠ s.licence.working →
      exec (.programmingCompletion read) s = .next
        { s with
          licence :=
            { s.licence with
              storeState := .incomplete, stored := emptyLicence, checkValue := Config.checkValue emptyLicence }
          transit := s.transit ++ [.occurrence SiteKind.licenceFailed.slot] })
    ∧ (s.licence.storeState = .erasing →
      exec .eraseCompletion s = .next
        { s with
          licence :=
            { s.licence with
              storeState := .blank, stored := emptyLicence, checkValue := Config.checkValue emptyLicence }
          transit := s.transit ++ [.occurrence SiteKind.licenceDone.slot] }))
  ∧ (∀ (read : LicenceTable) (s : State), s.phase = .running → s.licence.loading = true →
    (s.licence.storeState = .blank →
      exec (.startUpLoadEnd read) s = .next
        { s with licence := { s.licence with stored := emptyLicence, loading := false } })
    ∧ (s.licence.storeState = .protected_ → Config.checkValue read = s.licence.checkValue →
      exec (.startUpLoadEnd read) s = .next { s with licence := { s.licence with stored := read, loading := false } })
    ∧ (s.licence.storeState = .protected_ ∧ Config.checkValue read ≠ s.licence.checkValue
        ∨ s.licence.storeState = .incomplete ∨ s.licence.storeState = .erasing
        ∨ s.licence.storeState = .programming →
      exec (.startUpLoadEnd read) s = .next
        { s with
          licence := { s.licence with storeState := .incomplete, stored := emptyLicence, loading := false }
          transit := s.transit ++ [.occurrence SiteKind.licenceFailed.slot] }))

/-! ## The epoch timebase -/

/-- SET EPOCH is examined in order; one that passes sets the period, discards the partial epoch and keeps the counter.
When the position reaches the period the epoch ends: the counter rises, the position becomes 0 and every consumer is sent
a tick; so an EPOCH_END after a SET EPOCH ends nothing until a whole new period has passed. A consumer takes its ticks in
the order sent. The model's choice: EPOCH_END is the passing of the epoch's last unit, and nothing at any other position
(log entries 3 and 5) and while the start-up load runs (log entry 34). -/
def Obligations.SetEpochAndEpochEnd : Prop :=
  (∀ (p : Port) (tag : Option Byte) (prescale modulo : Nat) (s s' : State),
    Asked .timebase p tag (.setEpoch prescale modulo) s s' →
    (¬ Holds s p → exec (.setEpoch p) s = .next (s'.answer p tag (.plain .role .none_)))
    ∧ (Holds s p → prescale ∉ [1, 2, 4, 8, 16, 32, 64] →
      exec (.setEpoch p) s = .next (s'.answer p tag (.plain .range .prescale)))
    ∧ (Holds s p → prescale ∈ [1, 2, 4, 8, 16, 32, 64] → modulo < 10 ∨ 65535 < modulo →
      exec (.setEpoch p) s = .next (s'.answer p tag (.plain .range .modulo)))
    ∧ (Holds s p → prescale ∈ [1, 2, 4, 8, 16, 32, 64] → 10 ≤ modulo → modulo ≤ 65535 →
      exec (.setEpoch p) s = .next (State.answer p tag
        (.done (natBytes 1 prescale ++ natBytes 2 modulo ++ natBytes 2 s.timebase.counter.toNat))
        { s' with timebase := ⟨prescale, modulo, 0, s.timebase.counter⟩ })))
  ∧ (∀ s : State, s.timebase.position + 1 < s.timebase.prescale * s.timebase.modulo → exec .epochEnd s = .next s)
  ∧ (∀ s : State, s.licence.loading = true → exec .epochEnd s = .next s)
  ∧ (∀ s : State, s.phase = .running → s.licence.loading = false →
    s.timebase.prescale * s.timebase.modulo ≤ s.timebase.position + 1 →
    exec .epochEnd s = .next
      { s with
        timebase := { s.timebase with counter := s.timebase.counter + 1, position := 0 }
        transit := s.transit
          ++ [.tick .plan (s.timebase.counter + 1), .tick .authority (s.timebase.counter + 1)]
          ++ (List.finRange 8).map (fun c => .tick (.sequencer c) (s.timebase.counter + 1)) })
  ∧ (∀ (k : TickConsumer) (m : Message) (s s' : State),
    s.take (Message.isTick k) = some (m, s') ↔ s.TakesFirst (fun x => ∃ n, x = .tick k n) m s')

/-- READ CONFIG of the read-only items EPOCH_PERIOD and ATTENTION returns their values; CONFIGURE of a read-only item
is refused, first for want of authority. The model's choice: the latch is sent as 1 or 0 (log entry 20). -/
def Obligations.ReadOnlyItemsReadAndRefused : Prop :=
  ∀ (p : Port) (tag : Option Byte) (s s' : State),
    (Asked .timebase p tag (.readConfig .epochPeriod []) s s' →
      exec (.readConfigEpochPeriod p) s = .next (s'.answer p tag (.done
        (0x10 :: natBytes 1 s.timebase.prescale ++ natBytes 2 s.timebase.modulo
          ++ natBytes 2 s.timebase.counter.toNat))))
    ∧ (Asked .conditions p tag (.readConfig .attention_ []) s s' →
      exec (.readConfigAttention p) s = .next (s'.answer p tag (.done
        (0x12 :: natBytes 3 (s.conditions.attention p).mask.toNat
          ++ [(s.conditions.attention p).mode.code, if (s.conditions.attention p).latch then 1 else 0]))))
    ∧ (∀ value, Asked .timebase p tag (.configure .epochPeriod value) s s' →
      exec (.configureEpochPeriod p) s = .next (s'.answer p tag
        (if s.isHolder p then .plain .range .prescale else .plain .role .none_)))
    ∧ (∀ value, Asked .level p tag (.configure .latestResult value) s s' →
      exec (.configureLatestResult p) s = .next (s'.answer p tag
        (if s.isHolder p then .plain .range .readOnly else .plain .role .none_)))
    ∧ (∀ value, Asked .conditions p tag (.configure .attention_ value) s s' →
      exec (.configureAttention p) s = .next (s'.answer p tag
        (if s.isHolder p then .plain .range .readOnly else .plain .role .none_)))

/-! ## The channel sequencers -/

/-- An epoch tick at a sequencer, by the channel's state; LOCK_TIMEOUT, BLANKING_END and SETTLING_EXPIRY are the ticks
that reach those ends. -/
def Obligations.SequencerTickActsByState : Prop :=
  ∀ (c : Chan) (n : Word16) (s s' : State) (r : Channel), s.SequencersLawful → r = s.channels.get c →
    s.take (Message.isTick (.sequencer c)) = some (.tick (.sequencer c) n, s') →
    (r.state = .off ∨ r.state = .squelched ∨ r.state = .shutdown → exec (.sequencerTick c) s = .next s')
    ∧ (r.state = .tuning → s.params.tuneLimit ≤ r.tuneCount + 1 →
      exec (.sequencerTick c) s = .next (s'.afterEvent c
        { r with
          state := .shutdown, subPhase := none, tuneCount := 0, blankingCount := 0
          rxWritten := false, txWritten := false }
        [] [.occurrence (ChannelKind.lockTimeout.slot c)])
      ∧ exec (.lockTimeout c) s = exec (.sequencerTick c) s)
    ∧ (r.state = .tuning → r.tuneCount + 1 < s.params.tuneLimit → r.subPhase ≠ some .blanking →
      exec (.sequencerTick c) s = .next (s'.afterEvent c { r with tuneCount := r.tuneCount + 1 } [] []))
    ∧ (r.state = .tuning → r.tuneCount + 1 < s.params.tuneLimit → r.subPhase = some .blanking →
      (r.blankingCount = 0 →
        exec (.sequencerTick c) s
          = .next (s'.afterEvent c { r with tuneCount := r.tuneCount + 1, blankingCount := 1 } [] []))
      ∧ (1 ≤ r.blankingCount → r.lockRx = false ∨ r.lockTx = false →
        exec (.sequencerTick c) s = .next (s'.afterEvent c
          { r with
            tuneCount := r.tuneCount + 1, blankingCount := r.blankingCount + 1, subPhase := some .waitingLock } [] []))
      ∧ (1 ≤ r.blankingCount → r.lockRx = true → r.lockTx = true → s.params.settleEpochs ≠ 0 →
        exec (.sequencerTick c) s = .next (s'.afterEvent c
          { r with
            state := .settling, subPhase := none, tuneCount := 0, blankingCount := 0
            rxWritten := false, txWritten := false } [] []))
      ∧ (1 ≤ r.blankingCount → r.lockRx = true → r.lockTx = true → s.params.settleEpochs = 0 →
        exec (.sequencerTick c) s = .next (s'.afterEvent c
          { r with
            state := .squelched, subPhase := none, tuneCount := 0, blankingCount := 0
            rxWritten := false, txWritten := false }
          [] [.occurrence (ChannelKind.squelchClosed.slot c)]))
      ∧ (1 ≤ r.blankingCount → exec (.blankingEnd c) s = exec (.sequencerTick c) s))
    ∧ (r.state = .settling → r.settleCount + 1 < s.params.settleEpochs →
      exec (.sequencerTick c) s = .next (s'.afterEvent c { r with settleCount := r.settleCount + 1 } [] []))
    ∧ (r.state = .settling → s.params.settleEpochs ≤ r.settleCount + 1 →
      (∀ m, r.settlingMean = some m → r.entry.squelchOpen ≤ m →
        exec (.sequencerTick c) s = .next (s'.afterEvent c
          { r with
            state := .onAir, settleCount := 0, freshRx := false, settlingMean := none
            gain := if r.entry.gainMode = .step then r.entry.gainTarget else 0 } [] []))
      ∧ ((∀ m, r.settlingMean = some m → m < r.entry.squelchOpen) →
        exec (.sequencerTick c) s = .next (s'.afterEvent c
          { r with state := .squelched, settleCount := 0, freshRx := false, settlingMean := none }
          [] [.occurrence (ChannelKind.squelchClosed.slot c)]))
      ∧ exec (.settlingExpiry c) s = exec (.sequencerTick c) s)
    ∧ (r.state = .onAir ∨ r.state = .foldback →
      (r.entry.gainMode = .step → exec (.sequencerTick c) s = .next s')
      ∧ (∀ k, r.entry.gainMode = .ramp → r.entry.rampRate = some k →
        exec (.sequencerTick c) s = .next (s'.afterEvent c
          { r with
            gain :=
              if r.gain < r.entry.gainTarget then Nat.min (r.gain + k) r.entry.gainTarget
              else Nat.max (r.gain - k) r.entry.gainTarget } [] [])))

/-- An entry change at a sequencer, by the channel's state, the new service and the new frequencies. What entering a state
clears is written out. -/
def Obligations.EntryChangeActsByStateAndFrequencies : Prop :=
  (∀ r : Channel, r.cleared =
    { r with
      tuneCount := 0, blankingCount := 0, settleCount := 0, gain := 0, fold := 0, belowCount := 0, recoverCount := 0
      freshRx := false, settlingMean := none, rxWritten := false, txWritten := false })
  ∧ ∀ (c : Chan) (e : PlanEntry) (s s' : State) (r : Channel), s.SequencersLawful → r = s.channels.get c →
    s.take (Message.isEntryChange c) = some (.entryChange c e, s') →
    (r.state = .off → e.service = .inService → s.mode.mode = .operate →
      exec (.entryChange c) s = .next (s'.afterEvent c
        { r with
          entry := e, state := .tuning, subPhase := some .writing
          demandedRx := e.rxFreq / s.plan.raster, demandedTx := e.txFreq / s.plan.raster }
        (tuneDemands c (e.rxFreq / s.plan.raster) (e.txFreq / s.plan.raster)) []))
    ∧ (r.state = .off → e.service = .outOfService ∨ s.mode.mode = .standby →
      exec (.entryChange c) s = .next (s'.afterEvent c { r with entry := e } [] []))
    ∧ (r.state ≠ .off → e.service = .outOfService →
      exec (.entryChange c) s = .next (s'.afterEvent c
        { r.cleared with entry := e, state := .off, subPhase := none, demandedRx := 0, demandedTx := 0 }
        (tuneDemands c 0 0) [.offNotice c]))
    ∧ (r.state ≠ .off → r.state ≠ .shutdown → e.service = .inService →
      e.rxFreq ≠ r.entry.rxFreq ∨ e.txFreq ≠ r.entry.txFreq →
      exec (.entryChange c) s = .next (s'.afterEvent c
        { r.cleared with
          entry := e, state := .tuning, subPhase := some .writing
          demandedRx := e.rxFreq / s.plan.raster, demandedTx := e.txFreq / s.plan.raster }
        (tuneDemands c (e.rxFreq / s.plan.raster) (e.txFreq / s.plan.raster)) []))
    ∧ (r.state = .shutdown → e.service = .inService →
      exec (.entryChange c) s = .next (s'.afterEvent c { r with entry := e } [] []))
    ∧ (r.state ≠ .off → r.state ≠ .shutdown → e.service = .inService →
      e.rxFreq = r.entry.rxFreq → e.txFreq = r.entry.txFreq →
      exec (.entryChange c) s = .next (s'.afterEvent c
        { r with
          entry := e
          gain :=
            if e.gainMode = .step ∧ (e.gainTarget ≠ r.entry.gainTarget ∨ e.gainMode ≠ r.entry.gainMode)
              ∧ (r.state = .onAir ∨ r.state = .foldback ∨ r.state = .squelched)
            then e.gainTarget else r.gain
          belowCount := if e.squelchSource = r.entry.squelchSource then r.belowCount else 0
          freshRx := if e.squelchSource = r.entry.squelchSource then r.freshRx else false
          settlingMean := if e.squelchSource = r.entry.squelchSource then r.settlingMean else none } [] []))

/-- Site start, site stop and a fault shutdown at a sequencer. It takes site notices in the order they arrive, entry
changes in the order sent, and a site start after the site notices and entry changes sent before it. -/
def Obligations.SiteNoticesAndFaultShutdownActByState : Prop :=
  (∀ (c : Chan) (m : Message) (s s' : State),
    (s.take (Message.isSiteNotice c) = some (m, s') ↔
      s.TakesFirst (fun x => x = .siteStart c ∨ x = .siteStop c) m s')
    ∧ (s.take (Message.isEntryChange c) = some (m, s') ↔ s.TakesFirst (fun x => ∃ e, x = .entryChange c e) m s')
    ∧ (s.take (Message.beforeSiteStart c) = some (m, s') ↔
      s.TakesFirst (fun x => x = .siteStart c ∨ x = .siteStop c ∨ ∃ e, x = .entryChange c e) m s')
    ∧ (s.take (Message.isFaultShutdown c) = some (m, s') ↔ s.TakesFirst (fun x => x = .faultShutdown c) m s'))
  ∧ ∀ (c : Chan) (s s' : State) (r : Channel), s.SequencersLawful → r = s.channels.get c →
    (s.take (Message.beforeSiteStart c) = some (.siteStart c, s') →
      (r.state = .off → r.entry.service = .inService →
        exec (.siteStart c) s = .next (s'.afterEvent c
          { r with
            state := .tuning, subPhase := some .writing
            demandedRx := r.entry.rxFreq / s.plan.raster, demandedTx := r.entry.txFreq / s.plan.raster }
          (tuneDemands c (r.entry.rxFreq / s.plan.raster) (r.entry.txFreq / s.plan.raster)) []))
      ∧ (r.state ≠ .off ∨ r.entry.service = .outOfService → exec (.siteStart c) s = .next s'))
    ∧ (s.take (Message.isSiteNotice c) = some (.siteStop c, s') →
      (r.state = .off → exec (.siteStop c) s = .next s')
      ∧ (r.state ≠ .off →
        exec (.siteStop c) s = .next (s'.afterEvent c
          { r.cleared with state := .off, subPhase := none, demandedRx := 0, demandedTx := 0 }
          (tuneDemands c 0 0) [.offNotice c])))
    ∧ (s.take (Message.isFaultShutdown c) = some (.faultShutdown c, s') →
      (r.state = .off → exec (.faultShutdown c) s = .next s')
      ∧ (r.state = .shutdown →
        exec (.faultShutdown c) s
          = .next (s'.afterEvent c r [] [.occurrence (ChannelKind.faultShutdown.slot c)]))
      ∧ (r.state ≠ .off → r.state ≠ .shutdown →
        exec (.faultShutdown c) s = .next (s'.afterEvent c { r.cleared with state := .shutdown, subPhase := none }
          [] [.occurrence (ChannelKind.faultShutdown.slot c)])))

/-- A lock line change is recorded and then acts by the state. The model's choice: a part that does not run takes none (log
entry 13), and the level already recorded is no change (log entry 26). -/
def Obligations.LockLineChangeActsByState : Prop :=
  ∀ (c : Chan) (side : Side) (asserted : Bool) (s : State) (r : Channel), s.SequencersLawful →
    r = (s.channels.get c).setLock side asserted →
    (s.phase ≠ .running → exec (.lockLineChange c side asserted) s = .next s)
    ∧ ((s.channels.get c).lock side = asserted → exec (.lockLineChange c side asserted) s = .next s)
    ∧ (s.phase = .running → (s.channels.get c).lock side ≠ asserted →
      (r.state = .off ∨ r.state = .shutdown
          ∨ r.state = .tuning ∧ (r.subPhase ≠ some .waitingLock ∨ r.lockRx = false ∨ r.lockTx = false)
          ∨ r.state ≠ .tuning ∧ asserted = true →
        exec (.lockLineChange c side asserted) s = .next (s.afterEvent c r [] []))
      ∧ (r.state = .tuning → r.subPhase = some .waitingLock → r.lockRx = true → r.lockTx = true →
        (s.params.settleEpochs ≠ 0 →
          exec (.lockLineChange c side asserted) s = .next (s.afterEvent c
            { r with
              state := .settling, subPhase := none, tuneCount := 0, blankingCount := 0
              rxWritten := false, txWritten := false } [] []))
        ∧ (s.params.settleEpochs = 0 →
          exec (.lockLineChange c side asserted) s = .next (s.afterEvent c
            { r with
              state := .squelched, subPhase := none, tuneCount := 0, blankingCount := 0
              rxWritten := false, txWritten := false }
            [] [.occurrence (ChannelKind.squelchClosed.slot c)])))
      ∧ (r.state = .settling ∨ r.state = .onAir ∨ r.state = .squelched ∨ r.state = .foldback → asserted = false →
        exec (.lockLineChange c side asserted) s = .next (s.afterEvent c
          { r.cleared with state := .tuning, subPhase := some .waitingLock, rxWritten := true, txWritten := true }
          [] [.occurrence (ChannelKind.lockLost.slot c)])))

/-- A write completion marks its side written in WRITING where it carries the demanded word, and both sides written
begin BLANKING; any other completion changes nothing. -/
def Obligations.TuneWriteCompletionMarksSideWritten : Prop :=
  ∀ (c : Chan) (w : WriteRecord) (s s' : State) (r : Channel), s.SequencersLawful → r = s.channels.get c →
    s.take (Message.isCompletion c) = some (.completion w, s') →
    (r.subPhase ≠ some .writing ∨ w.target.device = .gain
        ∨ w.target.device = .rxSyn ∧ w.value ≠ r.demandedRx ∨ w.target.device = .txSyn ∧ w.value ≠ r.demandedTx →
      exec (.tuneWriteCompletion c) s = .next s')
    ∧ (r.subPhase = some .writing → w.target.device = .rxSyn → w.value = r.demandedRx →
      exec (.tuneWriteCompletion c) s = .next (s'.afterEvent c
        (if r.txWritten then { r with rxWritten := true, subPhase := some .blanking, blankingCount := 0 }
         else { r with rxWritten := true }) [] []))
    ∧ (r.subPhase = some .writing → w.target.device = .txSyn → w.value = r.demandedTx →
      exec (.tuneWriteCompletion c) s = .next (s'.afterEvent c
        (if r.rxWritten then { r with txWritten := true, subPhase := some .blanking, blankingCount := 0 }
         else { r with txWritten := true }) [] []))

/-- An RX result acts only where it is governing, by the channel's state: the settling mean, the below-count and the
squelch. -/
def Obligations.RxResultGovernsSquelch : Prop :=
  ∀ (c : Chan) (w : WindowResult) (s s' : State) (r : Channel), s.SequencersLawful → r = s.channels.get c →
    w.quantity = .rx → s.take (Message.isResult c) = some (.result c w, s') →
    (w.channel ≠ r.entry.squelchSource.getD c ∨ r.state = .off ∨ r.state = .tuning ∨ r.state = .shutdown →
      exec (.rxResult c) s = .next s')
    ∧ (w.channel = r.entry.squelchSource.getD c →
      (r.state = .settling →
        exec (.rxResult c) s
          = .next (s'.afterEvent c { r with freshRx := true, settlingMean := some w.mean } [] []))
      ∧ (r.state = .onAir ∨ r.state = .foldback →
        (r.entry.squelchClose ≤ w.mean →
          exec (.rxResult c) s = .next (s'.afterEvent c { r with belowCount := 0 } [] []))
        ∧ (w.mean < r.entry.squelchClose → r.belowCount + 1 < r.entry.squelchHoldoff →
          exec (.rxResult c) s = .next (s'.afterEvent c { r with belowCount := r.belowCount + 1 } [] []))
        ∧ (w.mean < r.entry.squelchClose → r.entry.squelchHoldoff ≤ r.belowCount + 1 →
          exec (.rxResult c) s = .next (s'.afterEvent c
            { r with state := .squelched, belowCount := 0, recoverCount := 0, fold := 0 }
            [] [.occurrence (ChannelKind.squelchClosed.slot c)])))
      ∧ (r.state = .squelched → w.mean < r.entry.squelchOpen → exec (.rxResult c) s = .next s')
      ∧ (r.state = .squelched → r.entry.squelchOpen ≤ w.mean →
        exec (.rxResult c) s = .next (s'.afterEvent c
          { r with
            state := .onAir
            gain := if r.entry.gainMode = .step then r.entry.gainTarget else r.gain } [] [])))

/-- A REFL result folds back, shuts down or counts toward recovery; a FWD result reports NO_CARRIER below the floor at
full gain on air. -/
def Obligations.ReflAndFwdResultsActOnAir : Prop :=
  ∀ (c : Chan) (w : WindowResult) (s s' : State) (r : Channel), s.SequencersLawful → r = s.channels.get c →
    s.take (Message.isResult c) = some (.result c w, s') →
    (w.quantity = .refl →
      (r.state ≠ .onAir → r.state ≠ .foldback → exec (.reflResult c) s = .next s')
      ∧ (r.state = .onAir ∨ r.state = .foldback → r.entry.reflLimit.getD s.params.reflLimit < w.mean →
        (r.gain ≤ r.fold + s.params.foldbackStep →
          exec (.reflResult c) s = .next (s'.afterEvent c { r.cleared with state := .shutdown, subPhase := none }
            [] [.occurrence (ChannelKind.reflShutdown.slot c)]))
        ∧ (r.fold + s.params.foldbackStep < r.gain →
          exec (.reflResult c) s = .next (s'.afterEvent c
            { r with state := .foldback, fold := r.fold + s.params.foldbackStep, recoverCount := 0 }
            [] (if r.fold = 0 then [.occurrence (ChannelKind.foldbackEntered.slot c)] else []))))
      ∧ (r.state = .onAir → w.mean ≤ r.entry.reflLimit.getD s.params.reflLimit →
        exec (.reflResult c) s = .next s')
      ∧ (r.state = .foldback → w.mean ≤ r.entry.reflLimit.getD s.params.reflLimit →
        (r.recoverCount + 1 < s.params.recoverWindows →
          exec (.reflResult c) s = .next (s'.afterEvent c { r with recoverCount := r.recoverCount + 1 } [] []))
        ∧ (s.params.recoverWindows ≤ r.recoverCount + 1 →
          exec (.reflResult c) s = .next (s'.afterEvent c
            { r with
              fold := r.fold - s.params.foldbackStep, recoverCount := 0
              state := if r.fold ≤ s.params.foldbackStep then .onAir else .foldback } [] []))))
    ∧ (w.quantity = .fwd →
      ((r.state = .onAir ∨ r.state = .foldback) ∧ r.gain = r.entry.gainTarget ∧ w.mean < s.params.carrierFloor →
        exec (.fwdResult c) s = .next
          { s' with transit := s'.transit ++ [.occurrence (ChannelKind.noCarrier.slot c)] })
      ∧ (r.state ≠ .onAir ∧ r.state ≠ .foldback ∨ r.gain ≠ r.entry.gainTarget ∨ s.params.carrierFloor ≤ w.mean →
        exec (.fwdResult c) s = .next s'))

/-- RESTART CHANNEL is examined in order and takes a channel in SHUTDOWN to TUNING; READ CHANNEL returns the channel
record, written out byte by byte, with the gate's level and changes nothing. The model's choice: bit 7 of byte 9 of the
channel record, which has no field, is sent as 0 (log entry 20). -/
def Obligations.RestartAndReadChannel : Prop :=
  ∀ (p : Port) (tag : Option Byte) (b : Byte) (s s' : State), s.SequencersLawful →
    (8 ≤ b.toNat → Asked .sequencerBlock p tag (.restartChannel b) s s' →
      exec (.restartChannel p b) s = .next (s'.answer p tag
        (if s.isHolder p then .plain .range .channel else .plain .role .none_)))
    ∧ (8 ≤ b.toNat → Asked .sequencerBlock p tag (.readChannel b) s s' →
      exec (.readChannel p b) s = .next (s'.answer p tag (.plain .range .channel)))
    ∧ (∀ c : Chan, b.toNat = c.val → Asked (.sequencer c) p tag (.readChannel b) s s' →
      exec (.readChannel p b) s = .next (s'.answer p tag (.done (encodeChannel c (s.channels.get c)
        (decide (s.phase = .running ∧ s.mode.mode = .operate
          ∧ ((s.channels.get c).state = .onAir ∨ (s.channels.get c).state = .foldback)))))))
    ∧ (∀ (c : Chan) (r : Channel), b.toNat = c.val → r = s.channels.get c →
      Asked (.sequencer c) p tag (.restartChannel b) s s' →
      (¬ Holds s p → exec (.restartChannel p b) s = .next (s'.answer p tag (.plain .role .none_)))
      ∧ (Holds s p → s.mode.mode = .standby →
        exec (.restartChannel p b) s = .next (s'.answer p tag (.plain .mode .none_)))
      ∧ (Holds s p → s.mode.mode = .operate → r.state ≠ .shutdown →
        exec (.restartChannel p b) s = .next (s'.answer p tag (.refused .state .notShutdown b)))
      ∧ (∀ n : Line, Holds s p → s.mode.mode = .operate → r.state = .shutdown →
        (s.conditions.slots.get (lineSlot n)).latched = true → (s.lines.get n).config.action = .shutdown →
        (s.lines.get n).config.channels.getLsbD c.val = true →
        (∀ m < n, ¬ ((s.conditions.slots.get (lineSlot m)).latched = true
          ∧ (s.lines.get m).config.action = .shutdown
          ∧ (s.lines.get m).config.channels.getLsbD c.val = true)) →
        exec (.restartChannel p b) s
          = .next (s'.answer p tag (.refused .faultPresent .lineShutdown (BitVec.ofNat 8 (67 + n.val)))))
      ∧ (Holds s p → s.mode.mode = .operate → r.state = .shutdown →
        (∀ m, ¬ ((s.conditions.slots.get (lineSlot m)).latched = true ∧ (s.lines.get m).config.action = .shutdown
          ∧ (s.lines.get m).config.channels.getLsbD c.val = true)) →
        exec (.restartChannel p b) s = .next (State.answer p tag (.done []) (s'.afterEvent c
          { r with
            state := .tuning, subPhase := some .writing
            demandedRx := r.entry.rxFreq / s.plan.raster, demandedTx := r.entry.txFreq / s.plan.raster }
          (tuneDemands c (r.entry.rxFreq / s.plan.raster) (r.entry.txFreq / s.plan.raster)) []))))
    ∧ (∀ (c : Chan) (r : Channel) (gate : Bool),
      encodeChannel c r gate =
        [BitVec.ofNat 8 c.val, if r.entry.service = .inService then 1 else 0,
          (match r.state with
            | .off => 0 | .tuning => 1 | .settling => 2 | .onAir => 3 | .squelched => 4 | .foldback => 5 | .shutdown => 6),
          (match r.subPhase with | some .writing => 0 | some .blanking => 1 | some .waitingLock => 2 | none => 255),
          BitVec.ofNat 8 r.tuneCount, BitVec.ofNat 8 r.blankingCount, BitVec.ofNat 8 r.settleCount,
          BitVec.ofNat 8 r.belowCount, BitVec.ofNat 8 r.recoverCount,
          BitVec.ofNat 8 (flag r.freshRx 1 + flag r.settlingMean.isSome 2 + flag r.rxWritten 4 + flag r.txWritten 8
            + flag r.lockRx 16 + flag r.lockTx 32 + flag gate 64)]
          ++ level2 (r.settlingMean.getD 0) ++ word2 r.gain ++ word2 r.fold ++ word2 r.demandedGain
          ++ word3 r.demandedRx ++ word3 r.demandedTx)

/-- CONFIGURE and READ CONFIG of the six site-wide sequencer parameters, and their return to the defaults. -/
def Obligations.SequencerParametersConfigured : Prop :=
  (∀ (p : Port) (tag : Option Byte) (s s' : State) (i : Item) (cmd : Instr) (low high : Nat)
      (set : Nat → SequencerParams → SequencerParams) (v : Byte),
    i = .tuneLimit ∧ cmd = .configureTuneLimit p ∧ low = 1 ∧ high = 255 ∧ (set = fun n k => { k with tuneLimit := n })
      ∨ i = .settleEpochs ∧ cmd = .configureSettleEpochs p ∧ low = 0 ∧ high = 255
        ∧ (set = fun n k => { k with settleEpochs := n })
      ∨ i = .foldbackStep ∧ cmd = .configureFoldbackStep p ∧ low = 5 ∧ high = 60
        ∧ (set = fun n k => { k with foldbackStep := n })
      ∨ i = .recoverWindows ∧ cmd = .configureRecoverWindows p ∧ low = 1 ∧ high = 64
        ∧ (set = fun n k => { k with recoverWindows := n }) →
    Asked .sequencerBlock p tag (.configure i [v]) s s' →
    (¬ Holds s p → exec cmd s = .next (s'.answer p tag (.plain .role .none_)))
    ∧ (Holds s p → v.toNat < low ∨ high < v.toNat → exec cmd s = .next (s'.answer p tag (.plain .range .value)))
    ∧ (Holds s p → low ≤ v.toNat → v.toNat ≤ high →
      exec cmd s = .next (State.answer p tag (.done [i.code, v]) { s' with params := set v.toNat s.params })))
  ∧ (∀ (p : Port) (tag : Option Byte) (s s' : State) (i : Item) (cmd : Instr)
      (set : Int → SequencerParams → SequencerParams) (hi lo : Byte),
    i = .reflLimit ∧ cmd = .configureReflLimit p ∧ (set = fun l k => { k with reflLimit := l })
      ∨ i = .carrierFloor ∧ cmd = .configureCarrierFloor p ∧ (set = fun l k => { k with carrierFloor := l }) →
    Asked .sequencerBlock p tag (.configure i [hi, lo]) s s' →
    (¬ Holds s p → exec cmd s = .next (s'.answer p tag (.plain .role .none_)))
    ∧ (Holds s p →
      exec cmd s = .next (State.answer p tag (.done [i.code, hi, lo])
        { s' with params := set (hi ++ lo).toInt s.params })))
  ∧ (∀ (p : Port) (tag : Option Byte) (s s' : State) (i : Item) (cmd : Instr) (bytes : List Byte),
    i = .tuneLimit ∧ cmd = .readConfigTuneLimit p ∧ bytes = [BitVec.ofNat 8 s.params.tuneLimit]
      ∨ i = .settleEpochs ∧ cmd = .readConfigSettleEpochs p ∧ bytes = [BitVec.ofNat 8 s.params.settleEpochs]
      ∨ i = .foldbackStep ∧ cmd = .readConfigFoldbackStep p ∧ bytes = [BitVec.ofNat 8 s.params.foldbackStep]
      ∨ i = .recoverWindows ∧ cmd = .readConfigRecoverWindows p ∧ bytes = [BitVec.ofNat 8 s.params.recoverWindows]
      ∨ i = .reflLimit ∧ cmd = .readConfigReflLimit p ∧ bytes = levelBytes s.params.reflLimit
      ∨ i = .carrierFloor ∧ cmd = .readConfigCarrierFloor p ∧ bytes = levelBytes s.params.carrierFloor →
    Asked .sequencerBlock p tag (.readConfig i []) s s' →
    exec cmd s = .next (s'.answer p tag (.done (i.code :: bytes))))
  ∧ (∀ s s' : State, s.take (Message.isInitNotice .sequencerBlock) = some (.initNotice .sequencerBlock, s') →
    exec .sequencerParametersInitialize s = .next
      { s' with params := ⟨50, 20, 20, 8, 16384, -32768⟩, transit := s'.transit ++ [.initReport .sequencerBlock] })

/-! ## The radio control link -/

/-- The link takes the demands of one sequencer event in order, each replacing the queued record of its target in place
or joining the tail, and starts the head where nothing is in flight; a completion goes to the owner and the next head
starts. A sequencer takes its completions in the order sent. One write on the link lines is 24 bits under the target's
select line and then rest. The model's choice: demands
reach the link in the order of the sequencer events that made them (log entry 2), a completion with no write in flight
is nothing (log entry 3), and how far a write has come is not held (log entry 25). -/
def Obligations.LinkTakesDemandsAndCompletesWrites : Prop :=
  (∀ (c : Chan) (ws : List WriteRecord) (q : List WriteRecord) (s s' : State),
    s.take Message.isDemands = some (.demands c ws, s') →
    q = ws.foldl (fun q w =>
        if q.any fun r => decide (r.target = w.target) then q.map fun r => if r.target = w.target then w else r
        else q ++ [w]) s.link.queue →
    (s.link.inFlight ≠ none ∨ q = [] →
      exec (.writeDemand c) s = .next { s' with link := { s.link with queue := q } })
    ∧ (∀ w rest, s.link.inFlight = none → q = w :: rest →
      exec (.writeDemand c) s = .next { s' with link := ⟨rest, some w⟩ }))
  ∧ (∀ s : State,
    (s.link.inFlight = none → exec .linkWriteComplete s = .next s)
    ∧ (∀ w, s.link.inFlight = some w → s.link.queue = [] →
      exec .linkWriteComplete s
        = .next { s with link := ⟨[], none⟩, transit := s.transit ++ [.completion w] })
    ∧ (∀ w w' rest, s.link.inFlight = some w → s.link.queue = w' :: rest →
      exec .linkWriteComplete s
        = .next { s with link := ⟨rest, some w'⟩, transit := s.transit ++ [.completion w] }))
  ∧ (∀ (c d : Chan) (ws : List WriteRecord) (s s' : State), s.take Message.isDemands = some (.demands d ws, s') →
    d ≠ c → exec (.writeDemand c) s = .next s)
  ∧ (∀ (l : Link) (k : Nat),
    (l.inFlight = none → l.lines k = ⟨none, false, false⟩)
    ∧ (∀ w, l.inFlight = some w →
      (k < 24 → l.lines k = ⟨some w.target, true, w.value.testBit (23 - k)⟩)
      ∧ (24 ≤ k → l.lines k = ⟨none, false, false⟩)))
  ∧ (∀ (c : Chan) (m : Message) (s s' : State),
    (s.take Message.isDemands = some (m, s') ↔ s.TakesFirst (fun x => ∃ d ws, x = .demands d ws) m s')
    ∧ (s.take (Message.isCompletion c) = some (m, s') ↔
      s.TakesFirst (fun x => ∃ w : WriteRecord, w.target.channel = c ∧ x = .completion w) m s'))

/-! ## The level monitor -/

/-- A word of the Sample Port: short words and bad tags are reported; a sample of an OFF channel is discarded; any other
is converted and added, completing a window at WINDOW_LENGTH; the fields of the window result and of the report record,
the bit of REPORT_SELECT that selects a pair, and one delivery to each sequencer that receives the result, which takes its
deliveries in the order sent. Of a word that straddles the end of a reset the bits after the end count. The model's choice: the bits of a word are the
command's operand (log entry 18), and a straddling word with 24 or more bits after the end is a sample (log entry 32). -/
def Obligations.SampleArrivalFillsAccumulatorAndCompletesWindow : Prop :=
  (∀ (bits : List Bool) (s : State), s.phase = .running → s.level.straddling = false →
    bits.length < 24 →
    exec (.sampleArrival ⟨[], bits⟩) s
      = .next { s with transit := s.transit ++ [.occurrence SiteKind.sampleTagError.slot] })
  ∧ (∀ (ch q code : Nat) (extra : List Bool) (s : State), s.phase = .running →
    s.level.straddling = false → ch < 16 → q < 16 → code < 65536 →
    (8 ≤ ch ∨ 3 ≤ q →
      exec (.sampleArrival ⟨[], bitsOf 4 ch ++ bitsOf 4 q ++ bitsOf 16 code ++ extra⟩) s
        = .next { s with transit := s.transit ++ [.occurrence SiteKind.sampleTagError.slot] })
    ∧ (∀ (c : Chan) (k : Quantity), ch = c.val → q = k.number →
      ((s.channels.get c).state = .off →
        exec (.sampleArrival ⟨[], bitsOf 4 ch ++ bitsOf 4 q ++ bitsOf 16 code ++ extra⟩) s = .next s)
      ∧ ∀ (level : Int) (x : Accumulator),
        level = (match s.level.sampleFormat with
          | .offsetBinary => (code : Int) - 32768
          | .twosComplement => if code < 32768 then (code : Int) else (code : Int) - 65536) →
        x = (s.level.meter c k).acc.add level → (s.channels.get c).state ≠ .off →
        (x.count ≠ s.level.windowLength →
          exec (.sampleArrival ⟨[], bitsOf 4 ch ++ bitsOf 4 q ++ bitsOf 16 code ++ extra⟩) s
            = .next { s with level := s.level.setMeter c k { s.level.meter c k with acc := x } })
        ∧ (x.count = s.level.windowLength → s.level.selects c k = false →
          exec (.sampleArrival ⟨[], bitsOf 4 ch ++ bitsOf 4 q ++ bitsOf 16 code ++ extra⟩) s
            = .next
              { s with
                level := s.level.setMeter c k ⟨Accumulator.empty, some (x.result c k s.timebase.counter)⟩
                transit := s.transit ++ s.deliveries (x.result c k s.timebase.counter) })
        ∧ (x.count = s.level.windowLength → s.level.selects c k = true → ∃ t,
          exec (.sampleArrival ⟨[], bitsOf 4 ch ++ bitsOf 4 q ++ bitsOf 16 code ++ extra⟩) s = .next t
          ∧ t = { s with level := t.level, transit := t.transit }
          ∧ t.level = { s.level.setMeter c k ⟨Accumulator.empty, some (x.result c k s.timebase.counter)⟩ with
              reports := t.level.reports, lossMark := t.level.lossMark }
          ∧ (s.level.reports.length < 48 →
            t.level.reports
                = s.level.reports ++ [(x.result c k s.timebase.counter).toReport s.level.lossMark]
              ∧ t.level.lossMark = false
              ∧ t.transit = s.transit ++ s.deliveries (x.result c k s.timebase.counter)
                ++ (if s.level.reports.length + 1 = s.level.reportThreshold
                    then [.occurrence SiteKind.reportsWaiting.slot] else []))
          ∧ (48 ≤ s.level.reports.length →
            t.level.reports = s.level.reports ∧ t.level.lossMark = true
              ∧ t.transit = s.transit ++ s.deliveries (x.result c k s.timebase.counter)
                ++ [.occurrence SiteKind.reportOverflow.slot]))))
  ∧ (∀ (level : Int) (x : Accumulator), -32768 ≤ level → level ≤ 32767 → -8388608 ≤ x.sum → x.sum ≤ 8388607 →
    (x.add level).count = x.count + 1
    ∧ (x.add level).sum + (x.add level).wraps * 16777216 = x.sum + x.wraps * 16777216 + level
    ∧ -8388608 ≤ (x.add level).sum ∧ (x.add level).sum ≤ 8388607
    ∧ ((x.add level).min = some (match x.min with | none => level | some m => min m level))
    ∧ ((x.add level).max = some (match x.max with | none => level | some m => max m level)))
  ∧ (∀ (s : State) (w : WindowResult),
    (∀ c, Message.result c w ∈ s.deliveries w ↔
      c = w.channel ∨ w.quantity = .rx ∧ (s.channels.get c).entry.squelchSource = some w.channel)
    ∧ (∀ m ∈ s.deliveries w, ∃ c, m = .result c w) ∧ (s.deliveries w).Nodup)
  ∧ (∀ (c : Chan) (m : Message) (s s' : State),
    s.take (Message.isResult c) = some (m, s') ↔ s.TakesFirst (fun x => ∃ w, x = .result c w) m s')
  ∧ (∀ (l : LevelMonitor) (c : Chan) (k : Quantity),
    l.selects c k = l.reportSelect.getLsbD (3 * c.val + match k with | .rx => 0 | .fwd => 1 | .refl => 2))
  ∧ [Quantity.rx, .fwd, .refl].map Quantity.number = [0, 1, 2]
  ∧ (∀ (c : Chan) (k : Quantity) (stamp : Word16) (x : Accumulator) (low high : Int), x.min = some low →
    x.max = some high →
    x.result c k stamp
      = ⟨c, k, stamp, x.count, (x.sum + x.wraps * 16777216).tdiv x.count, low, high, x.sum, x.wraps⟩)
  ∧ (∀ (w : WindowResult) (loss : Bool),
    w.toReport loss = ⟨w.channel, w.quantity, loss, w.stamp, w.mean, (w.max - w.min).toNat⟩)
  ∧ (∀ (before after : List Bool) (s : State),
    (s.level.straddling = false →
      exec (.sampleArrival ⟨before, after⟩) s = exec (.sampleArrival ⟨[], before ++ after⟩) s)
    ∧ (s.phase = .running → s.level.straddling = true →
      exec (.sampleArrival ⟨before, after⟩) s
        = exec (.sampleArrival ⟨[], after⟩) { s with level := { s.level with straddling := false } })
    ∧ (s.phase ≠ .running → exec (.sampleArrival ⟨before, after⟩) s = .next s))

/-- An OFF notice empties the three pairs of its channel; READ REPORTS removes the oldest records and FLUSH REPORTS
all; the initialize notice restores the reset values, a word in progress apart. The report record is written out byte by
byte. The model's choice: FLUSH REPORTS answers its count in one byte, and bits 3 and 2 of byte 0 of the report record are
sent as 0 (log entry 20). -/
def Obligations.OffNoticeReportsAndLevelInitialize : Prop :=
  (∀ (c : Chan) (s s' : State), s.take (Message.isOffNotice c) = some (.offNotice c, s') →
    ∃ t, exec (.offNotice c) s = .next t ∧ t = { s' with level := { s.level with meters := t.level.meters } }
      ∧ (∀ q, t.level.meter c q = ⟨⟨0, 0, 0, none, none⟩, none⟩)
      ∧ (∀ d q, d ≠ c → t.level.meter d q = s.level.meter d q))
  ∧ (∀ (c : Chan) (m : Message) (s s' : State),
    s.take (Message.isOffNotice c) = some (m, s') ↔ s.TakesFirst (fun x => x = .offNotice c) m s')
  ∧ (∀ (p : Port) (tag : Option Byte) (n : Nat) (s s' : State), Asked .level p tag (.readReports n) s s' →
    (n = 0 ∨ 8 < n → exec (.readReports p) s = .next (s'.answer p tag (.plain .range .reportCount)))
    ∧ (1 ≤ n → n ≤ 8 →
      exec (.readReports p) s = .next (State.answer p tag
        (.done (natBytes 1 (min n s.level.reports.length) ++ natBytes 1 (s.level.reports.length - n)
          ++ (s.level.reports.take n).flatMap encodeReport))
        { s' with level := { s.level with reports := s.level.reports.drop n } })))
  ∧ (∀ (p : Port) (tag : Option Byte) (s s' : State), Asked .level p tag .flushReports s s' →
    (¬ Holds s p → exec (.flushReports p) s = .next (s'.answer p tag (.plain .role .none_)))
    ∧ (Holds s p →
      exec (.flushReports p) s = .next (State.answer p tag (.done (natBytes 1 s.level.reports.length))
        { s' with level := { s.level with reports := [] } })))
  ∧ (∀ s s' : State, s.take (Message.isInitNotice .levelMonitor) = some (.initNotice .levelMonitor, s') →
    ∃ t, exec .levelMonitorInitialize s = .next t
      ∧ t = { s' with level := t.level, transit := s'.transit ++ [.initReport .levelMonitor] }
      ∧ (∀ c q, t.level.meter c q = ⟨⟨0, 0, 0, none, none⟩, none⟩)
      ∧ t.level.reports = [] ∧ t.level.lossMark = false ∧ t.level.windowLength = 64
      ∧ t.level.sampleFormat = .offsetBinary ∧ t.level.reportSelect = 0 ∧ t.level.reportThreshold = 24
      ∧ t.level.straddling = s.level.straddling)
  ∧ (∀ r : ReportRecord,
    encodeReport r =
      [BitVec.ofNat 8 (flag r.loss 128 + 16 * r.channel.val + (match r.quantity with | .rx => 0 | .fwd => 1 | .refl => 2))]
        ++ word2 r.stamp.toNat ++ level2 r.mean ++ word2 r.spread)

/-- CONFIGURE of WINDOW_LENGTH and SAMPLE_FORMAT in STANDBY with nothing measuring; of REPORT_SELECT and
REPORT_THRESHOLD in either mode; READ CONFIG of the four and of LATEST_RESULT, whose bytes are written out. The model's
choice: the presence byte of LATEST_RESULT is 1 or 0, and its sum and wraps are two's complement (log entry 20); an untaken
OFF notice of a channel in OFF with empty accumulators refuses nothing, and its latest results stay until the notice is
taken (log entry 35). -/
def Obligations.MeasurementConfiguredAndRead : Prop :=
  (∀ (p : Port) (tag : Option Byte) (s s' : State) (i : Item) (cmd : Instr) (value : List Byte)
      (l : Option LevelMonitor),
    (∃ hi lo : Byte, i = .windowLength ∧ cmd = .configureWindowLength p ∧ value = [hi, lo]
        ∧ (l = if 1 ≤ 256 * hi.toNat + lo.toNat ∧ 256 * hi.toNat + lo.toNat ≤ 1024
            then some { s.level with windowLength := 256 * hi.toNat + lo.toNat } else none))
      ∨ (∃ v : Byte, i = .sampleFormat ∧ cmd = .configureSampleFormat p ∧ value = [v]
        ∧ (l = if v = 0 then some { s.level with sampleFormat := .offsetBinary }
            else if v = 1 then some { s.level with sampleFormat := .twosComplement } else none)) →
    Asked .level p tag (.configure i value) s s' →
    (¬ Holds s p → exec cmd s = .next (s'.answer p tag (.plain .role .none_)))
    ∧ (Holds s p → s.mode.mode = .operate → exec cmd s = .next (s'.answer p tag (.plain .mode .none_)))
    ∧ (Holds s p → s.mode.mode = .standby → l = none →
      exec cmd s = .next (s'.answer p tag (.plain .range .value)))
    ∧ (∀ c, Holds s p → s.mode.mode = .standby → l.isSome →
      ((s.channels.get c).state ≠ .off ∨ ∃ q, (s.level.meter c q).acc ≠ ⟨0, 0, 0, none, none⟩) →
      (∀ d < c, (s.channels.get d).state = .off ∧ ∀ q, (s.level.meter d q).acc = ⟨0, 0, 0, none, none⟩) →
      exec cmd s = .next (s'.answer p tag (.refused .state .measurementActive (BitVec.ofNat 8 c.val))))
    ∧ (∀ l', Holds s p → s.mode.mode = .standby → l = some l' →
      (∀ d, (s.channels.get d).state = .off ∧ ∀ q, (s.level.meter d q).acc = ⟨0, 0, 0, none, none⟩) →
      exec cmd s = .next (State.answer p tag (.done (i.code :: value)) { s' with level := l' })))
  ∧ (∀ (p : Port) (tag : Option Byte) (s s' : State) (x y z : Byte),
    Asked .level p tag (.configure .reportSelect [x, y, z]) s s' →
    (¬ Holds s p → exec (.configureReportSelect p) s = .next (s'.answer p tag (.plain .role .none_)))
    ∧ (Holds s p → exec (.configureReportSelect p) s = .next (State.answer p tag (.done [0x0C, x, y, z])
        { s' with level := { s.level with reportSelect := x ++ y ++ z } })))
  ∧ (∀ (p : Port) (tag : Option Byte) (s s' : State) (v : Byte),
    Asked .level p tag (.configure .reportThreshold [v]) s s' →
    (¬ Holds s p → exec (.configureReportThreshold p) s = .next (s'.answer p tag (.plain .role .none_)))
    ∧ (Holds s p → v = 0 ∨ 48 < v.toNat →
      exec (.configureReportThreshold p) s = .next (s'.answer p tag (.plain .range .value)))
    ∧ (Holds s p → v ≠ 0 → v.toNat ≤ 48 →
      exec (.configureReportThreshold p) s = .next (State.answer p tag (.done [0x0D, v])
        { s' with level := { s.level with reportThreshold := v.toNat } })))
  ∧ (∀ (p : Port) (tag : Option Byte) (s s' : State) (i : Item) (cmd : Instr) (bytes : List Byte),
    i = .windowLength ∧ cmd = .readConfigWindowLength p ∧ bytes = natBytes 2 s.level.windowLength
      ∨ i = .sampleFormat ∧ cmd = .readConfigSampleFormat p ∧ bytes = [s.level.sampleFormat.code]
      ∨ i = .reportSelect ∧ cmd = .readConfigReportSelect p ∧ bytes = natBytes 3 s.level.reportSelect.toNat
      ∨ i = .reportThreshold ∧ cmd = .readConfigReportThreshold p
        ∧ bytes = [BitVec.ofNat 8 s.level.reportThreshold] →
    Asked .level p tag (.readConfig i []) s s' →
    exec cmd s = .next (s'.answer p tag (.done (i.code :: bytes))))
  ∧ (∀ (p : Port) (tag : Option Byte) (x y : Byte) (s s' : State),
    Asked .level p tag (.readConfig .latestResult [x, y]) s s' →
    (8 ≤ x.toNat → exec (.readConfigLatestResult p) s = .next (s'.answer p tag (.plain .range .channel)))
    ∧ (x.toNat < 8 → 3 ≤ y.toNat →
      exec (.readConfigLatestResult p) s = .next (s'.answer p tag (.plain .range .quantity)))
    ∧ (∀ (c : Chan) (q : Quantity), x.toNat = c.val → y.toNat = q.number →
      exec (.readConfigLatestResult p) s = .next (s'.answer p tag (.done
        (0x11 :: x :: y :: natBytes 2 (s.level.meter c q).acc.count ++ encodeLatest (s.level.meter c q).latest)))))
  ∧ encodeLatest none = [0]
  ∧ (∀ r : WindowResult,
    encodeLatest (some r) =
      [1] ++ word2 r.stamp.toNat ++ word2 r.count ++ level2 r.mean ++ level2 r.min ++ level2 r.max
        ++ word3 (r.sum % 16777216).toNat ++ [BitVec.ofNat 8 (r.wraps % 256).toNat])

/-! ## Site modes -/

/-- SET MODE (OPERATE) is examined by eight tests in order; one that passes enters OPERATE, sends eight site starts and
opens no gate. The model's choice: where a channel is still ON_AIR or FOLDBACK the entry is not due (log entry 31). -/
def Obligations.SetModeOperateExaminedAndEntered : Prop :=
  ∀ (p : Port) (tag : Option Byte) (n : Nat) (s s' : State), Asked .mode p tag (.setMode n) s s' →
    (n ≠ 0 → ¬ Holds s p → exec (.setModeOperate p) s = .next (s'.answer p tag (.plain .role .none_)))
    ∧ (2 ≤ n → Holds s p → exec (.setModeOperate p) s = .next (s'.answer p tag (.plain .range .mode)))
    ∧ (n = 1 → Holds s p → s.mode.mode = .operate →
      exec (.setModeOperate p) s = .next (s'.answer p tag (.plain .mode .none_)))
    ∧ (n = 1 → Holds s p → s.mode.mode = .standby → s.mode.awaited ≠ [] →
      exec (.setModeOperate p) s = .next (s'.answer p tag (.plain .busy .initializing)))
    ∧ (n = 1 → Holds s p → s.mode.mode = .standby → s.mode.awaited = [] →
      (s.licence.storeState = .erasing ∨ s.licence.storeState = .programming →
        exec (.setModeOperate p) s = .next (s'.answer p tag (.plain .busy .storeInFlight)))
      ∧ (s.licence.storeState = .blank ∨ s.licence.storeState = .incomplete →
        exec (.setModeOperate p) s = .next (s'.answer p tag (.plain .mode .storeNotProtected)))
      ∧ (∀ l : Line, s.licence.storeState = .protected_ → (s.lines.get l).config.action = .standby →
        (s.lines.get l).asserted = true ∨ (s.conditions.slots.get (lineSlot l)).latched = true →
        (∀ m < l, (s.lines.get m).config.action = .standby →
          (s.lines.get m).asserted = false ∧ (s.conditions.slots.get (lineSlot m)).latched = false) →
        exec (.setModeOperate p) s
          = .next (s'.answer p tag (.refused .faultPresent .lineStandby (BitVec.ofNat 8 (67 + l.val)))))
      ∧ (s.licence.storeState = .protected_ →
        (∀ m, (s.lines.get m).config.action = .standby →
          (s.lines.get m).asserted = false ∧ (s.conditions.slots.get (lineSlot m)).latched = false) →
        (∀ x, s.validate s.plan.active = some x → exec (.setModeOperate p) s = .next (s'.answer p tag x))
        ∧ (s.validate s.plan.active = none →
          (∀ c, (s.channels.get c).state ≠ .onAir ∧ (s.channels.get c).state ≠ .foldback) → ∃ t,
          exec (.setModeOperate p) s = .next (State.answer p tag (.done []) t)
          ∧ t = { s' with
              mode := { s.mode with mode := .operate }
              transit := s'.transit ++ (List.finRange 8).map .siteStart }
          ∧ ∀ c, (State.answer p tag (.done []) t).gate c = false)
        ∧ (∀ c, s.validate s.plan.active = none →
          (s.channels.get c).state = .onAir ∨ (s.channels.get c).state = .foldback →
          exec (.setModeOperate p) s = .next s)))

/-- The three ways into STANDBY: in OPERATE the mode, the cause, STANDBY_ENTERED, eight site stops and the standby
notice, every gate closed at the event; in STANDBY nothing changes. -/
def Obligations.WaysIntoStandby : Prop :=
  (∀ (n : Line) (m : Message) (s s' : State),
    s.take (Message.isFaultStandby n) = some (m, s') ↔ s.TakesFirst (fun x => x = .faultStandby n) m s')
  ∧ ∀ (p : Port) (tag : Option Byte) (s s' : State) (i : Instr) (cause : StandbyCause) (reply : State → State),
    i = .setModeStandby p ∧ Asked .mode p tag (.setMode 0) s s' ∧ Holds s p ∧ cause = .request p
        ∧ reply = State.answer p tag (.done [])
      ∨ i = .siteStandby p ∧ Asked .mode p tag .siteStandby s s' ∧ cause = .emergency p
        ∧ reply = State.answer p tag (.done [])
      ∨ (∃ n, i = .faultStandby n ∧ s.take (Message.isFaultStandby n) = some (.faultStandby n, s')
        ∧ cause = .faultLine n ∧ reply = id) →
    (s.mode.mode = .standby → exec i s = .next (reply s'))
    ∧ (s.mode.mode = .operate → ∃ t,
      exec i s = .next (reply t)
      ∧ t = { s' with
          mode := { s.mode with mode := .standby, cause := cause }
          transit := s'.transit ++ [.occurrence SiteKind.standbyEntered.slot] ++ (List.finRange 8).map .siteStop
            ++ [.standbyNotice] }
      ∧ ∀ c, (reply t).gate c = false)

/-- INITIALIZE is examined in order and sends five notices; Mode Control takes the blocks' reports and the mark clears
at the last. SET MODE (STANDBY) is refused by role and by selector. The model's choice: the mark is held as the blocks
awaited (log entry 28), and a selector that names neither mode is refused under either row (log entry 21). -/
def Obligations.InitializeSendsNoticesAndAwaitsReports : Prop :=
  (∀ (p : Port) (tag : Option Byte) (s s' : State), Asked .mode p tag .initializeSite s s' →
    (¬ Holds s p → exec (.initializeSite p) s = .next (s'.answer p tag (.plain .role .none_)))
    ∧ (Holds s p → s.mode.mode = .operate →
      exec (.initializeSite p) s = .next (s'.answer p tag (.plain .mode .none_)))
    ∧ (Holds s p → s.mode.mode = .standby → s.mode.awaited ≠ [] →
      exec (.initializeSite p) s = .next (s'.answer p tag (.plain .busy .initializing)))
    ∧ (Holds s p → s.mode.mode = .standby → s.mode.awaited = [] →
      exec (.initializeSite p) s = .next (State.answer p tag (.done [])
        { s' with
          mode := { s.mode with awaited :=
            [.planController, .sequencerBlock, .levelMonitor, .faultLineMonitor, .conditionTable] }
          transit := s'.transit ++ [.initNotice .planController, .initNotice .sequencerBlock,
            .initNotice .levelMonitor, .initNotice .faultLineMonitor, .initNotice .conditionTable] })))
  ∧ (∀ (b : InitBlock) (s s' : State), s.take (Message.isInitReport b) = some (.initReport b, s') →
    exec (.initializeNoticeReport b) s = .next
      { s' with mode := { s.mode with awaited := s.mode.awaited.filter fun x => decide (x ≠ b) } })
  ∧ (∀ (p : Port) (tag : Option Byte) (n : Nat) (s s' : State), Asked .mode p tag (.setMode n) s s' → n ≠ 1 →
    (¬ Holds s p → exec (.setModeStandby p) s = .next (s'.answer p tag (.plain .role .none_)))
    ∧ (Holds s p → 2 ≤ n → exec (.setModeStandby p) s = .next (s'.answer p tag (.plain .range .mode))))
  ∧ (∀ (b : InitBlock) (m : Message) (s s' : State),
    (s.take Message.isStandbyNotice = some (m, s') ↔ s.TakesFirst (fun x => x = .standbyNotice) m s')
    ∧ (s.take (Message.isInitNotice b) = some (m, s') ↔ s.TakesFirst (fun x => x = .initNotice b) m s')
    ∧ (s.take (Message.isInitReport b) = some (m, s') ↔ s.TakesFirst (fun x => x = .initReport b) m s'))

/-! ## Fault lines -/

/-- A pin change is noted; at the end of a filter interval the filtered level takes the pin's level, and the line asserts
or deasserts by its polarity. The model's choice: an interval is in progress while the two levels differ (log entry 19),
and the end of an interval that is not in progress is nothing (log entry 3). -/
def Obligations.FilteredLevelAssertsAndDeassertsLine : Prop :=
  ∀ (n : Line) (s : State), s.phase = .running →
    (∀ high, exec (.faultPinChange n high) s
      = .next { s with lines := put s.lines n { s.lines.get n with pinHigh := high } })
    ∧ ((s.lines.get n).pinHigh = (s.lines.get n).filteredHigh → exec (.filterIntervalEnd n) s = .next s)
    ∧ (∀ (l : FaultLine), l = { s.lines.get n with filteredHigh := (s.lines.get n).pinHigh } →
      (s.lines.get n).pinHigh ≠ (s.lines.get n).filteredHigh →
      (l.config.polarity = .activeLow ∧ l.filteredHigh = true ∨ l.config.polarity = .activeHigh ∧ l.filteredHigh = false →
        exec (.filterIntervalEnd n) s
          = .next { s with lines := put s.lines n l, transit := s.transit ++ [.deassertion n] })
      ∧ (l.config.polarity = .activeLow ∧ l.filteredHigh = false ∨ l.config.polarity = .activeHigh ∧ l.filteredHigh = true →
        (l.config.action = .report →
          exec (.filterIntervalEnd n) s
            = .next { s with lines := put s.lines n l, transit := s.transit ++ [.occurrence (lineSlot n)] })
        ∧ (l.config.action = .standby →
          exec (.filterIntervalEnd n) s
            = .next
              { s with lines := put s.lines n l, transit := s.transit ++ [.occurrence (lineSlot n), .faultStandby n] })
        ∧ (l.config.action = .shutdown →
          exec (.filterIntervalEnd n) s
            = .next
              { s with
                lines := put s.lines n l
                transit := s.transit ++ .occurrence (lineSlot n)
                  :: ((List.finRange 8).filter fun c => l.config.channels.getLsbD c.val).map .faultShutdown })))

/-- CONFIGURE of LINE is examined in order, replaces the four fields and re-evaluates the line; READ CONFIG returns it;
the initialize notice sets every line to the defaults and re-evaluates each. -/
def Obligations.LineConfiguredReadAndInitialized : Prop :=
  (∀ (p : Port) (tag : Option Byte) (v0 v1 v2 v3 v4 : Byte) (s s' : State),
    Asked .faultLines p tag (.configure .line [v0, v1, v2, v3, v4]) s s' →
    (¬ Holds s p → exec (.configureLine p) s = .next (s'.answer p tag (.plain .role .none_)))
    ∧ (Holds s p → s.mode.mode = .operate →
      exec (.configureLine p) s = .next (s'.answer p tag (.plain .mode .none_)))
    ∧ (Holds s p → s.mode.mode = .standby → 8 ≤ v0.toNat →
      exec (.configureLine p) s = .next (s'.answer p tag (.plain .range .line)))
    ∧ (Holds s p → s.mode.mode = .standby → v0.toNat < 8 → 2 ≤ v1.toNat ∨ 2 ≤ v2.toNat ∨ 3 ≤ v3.toNat →
      exec (.configureLine p) s = .next (s'.answer p tag (.refused .range .lineField v0)))
    ∧ (∀ (n : Line) (k : LineConfig) (l : FaultLine), Holds s p → s.mode.mode = .standby → v0.toNat = n.val →
      v1 = k.polarity.code → v2 = k.sensitivity.code → v3 = k.action.code → v4 = k.channels →
      l = { s.lines.get n with config := k } →
      (l.asserted = (s.lines.get n).asserted →
        exec (.configureLine p) s = .next (State.answer p tag (.done [0x0E, v0, v1, v2, v3, v4])
          { s' with lines := put s.lines n l }))
      ∧ (l.asserted = false → (s.lines.get n).asserted = true →
        exec (.configureLine p) s = .next (State.answer p tag (.done [0x0E, v0, v1, v2, v3, v4])
          { s' with lines := put s.lines n l, transit := s'.transit ++ [.deassertion n] }))
      ∧ (l.asserted = true → (s.lines.get n).asserted = false →
        exec (.configureLine p) s = .next (State.answer p tag (.done [0x0E, v0, v1, v2, v3, v4])
          { s' with
            lines := put s.lines n l
            transit := s'.transit ++ .occurrence (lineSlot n) :: (match k.action with
              | .report => []
              | .shutdown => ((List.finRange 8).filter fun c => k.channels.getLsbD c.val).map .faultShutdown
              | .standby => [.faultStandby n]) }))))
  ∧ (∀ (p : Port) (tag : Option Byte) (v : Byte) (s s' : State),
    Asked .faultLines p tag (.readConfig .line [v]) s s' →
    (8 ≤ v.toNat → exec (.readConfigLine p) s = .next (s'.answer p tag (.plain .range .line)))
    ∧ (∀ n : Line, v.toNat = n.val →
      exec (.readConfigLine p) s = .next (s'.answer p tag (.done
        [0x0E, v, (s.lines.get n).config.polarity.code, (s.lines.get n).config.sensitivity.code,
          (s.lines.get n).config.action.code, (s.lines.get n).config.channels,
          if (s.lines.get n).filteredHigh then 1 else 0, if (s.lines.get n).asserted then 1 else 0]))))
  ∧ (∀ s s' : State, s.take (Message.isInitNotice .faultLineMonitor) = some (.initNotice .faultLineMonitor, s') →
    ∃ t, exec .faultLineInitialize s = .next t ∧ t = { s' with lines := t.lines, transit := t.transit }
      ∧ (∀ n, t.lines.get n = { s.lines.get n with config := ⟨.activeLow, .edge, .report, 0⟩ })
      ∧ t.transit = s'.transit
          ++ (List.finRange 8).flatMap (fun n =>
            if (s.lines.get n).asserted = !(s.lines.get n).filteredHigh then []
            else if (s.lines.get n).filteredHigh then [.deassertion n]
            else [.occurrence (lineSlot n)])
          ++ [.initReport .faultLineMonitor])

/-! ## Conditions and attention -/

/-- An occurrence latches, counts and stamps its slot, empties seen-by and sets the latches of the ports whose masks
hold its kind; a deassertion notice clears a clear-pending slot. The lines are formed anew. The occurrences and the
deassertion notices of one line are taken in the order sent. The numbers of the slots and of their kinds are written
out. -/
def Obligations.OccurrenceLatchesAndDeassertionClears : Prop :=
  (∀ (i : SlotNo) (s s' : State), s.take (Message.concernsSlot i) = some (.occurrence i, s') →
    ∃ t, exec (.occurrence i) s = .next t ∧ t = { s' with conditions := t.conditions }
      ∧ t.conditions.slots.get i
          = ⟨true, min ((s.conditions.slots.get i).occurrences + 1) 255, some s.timebase.counter,
            ⟨false, false, false⟩, false⟩
      ∧ (∀ j, j ≠ i → t.conditions.slots.get j = s.conditions.slots.get j)
      ∧ (∀ p, (t.conditions.attention p).mask = (s.conditions.attention p).mask
        ∧ (t.conditions.attention p).mode = (s.conditions.attention p).mode
        ∧ (t.conditions.attention p).latch
            = ((s.conditions.attention p).latch || (s.conditions.attention p).mask.getLsbD (kindOf i)))
      ∧ (s.conditions.Lawful → t.conditions.Lawful))
  ∧ (∀ (n : Line) (s s' : State), s.take (Message.concernsSlot (lineSlot n)) = some (.deassertion n, s') →
    s.conditions.Lawful →
    ((s.conditions.slots.get (lineSlot n)).clearPending = false → exec (.deassertionNotice n) s = .next s')
    ∧ ((s.conditions.slots.get (lineSlot n)).clearPending = true →
      ∃ t, exec (.deassertionNotice n) s = .next t ∧ t = { s' with conditions := t.conditions }
        ∧ t.conditions.slots.get (lineSlot n) = ⟨false, 0, none, ⟨false, false, false⟩, false⟩
        ∧ (∀ j, j ≠ lineSlot n → t.conditions.slots.get j = s.conditions.slots.get j)
        ∧ (∀ p, (t.conditions.attention p).mask = (s.conditions.attention p).mask
          ∧ (t.conditions.attention p).mode = (s.conditions.attention p).mode
          ∧ (t.conditions.attention p).latch = (s.conditions.attention p).latch)
        ∧ t.conditions.Lawful))
  ∧ (∀ (i : SlotNo) (m : Message) (s s' : State),
    s.take (Message.concernsSlot i) = some (m, s') ↔
      s.TakesFirst (fun x => x = .occurrence i ∨ ∃ n, lineSlot n = i ∧ x = .deassertion n) m s')
  ∧ (∀ (k : SiteKind) (n : Nat), (k, n) ∈
      ([ (.authorityLapsed, 0), (.authorityHandover, 1), (.reserveLapsed, 2), (.activationDone, 3),
         (.activationAbandoned, 4), (.standbyEntered, 5), (.reportsWaiting, 6), (.reportOverflow, 7), (.sampleTagError, 8),
         (.licenceDone, 9), (.licenceFailed, 10)] : List (SiteKind × Nat)) → k.slot.val = n)
  ∧ (∀ (k : ChannelKind) (n : Nat), (k, n) ∈
      ([ (.lockTimeout, 0), (.lockLost, 1), (.squelchClosed, 2), (.foldbackEntered, 3), (.reflShutdown, 4),
         (.faultShutdown, 5), (.noCarrier, 6)] : List (ChannelKind × Nat)) → ∀ c, (k.slot c).val = 11 + 7 * c.val + n)
  ∧ (∀ n : Line, (lineSlot n).val = 67 + n.val)
  ∧ (∀ i : SlotNo,
    (i.val < 11 → kindOf i = i.val)
    ∧ (11 ≤ i.val → i.val < 67 → kindOf i = 11 + (i.val - 11) % 7)
    ∧ (67 ≤ i.val → kindOf i = 18))

/-- READ CONDITIONS returns the first eight latched slots from the start slot and marks the port in their seen-by sets;
CLEAR CONDITIONS takes its list in order, each entry judged on the table the entries before it left: it clears a slot the
port has read, or makes it clear-pending while its line holds it. The condition slot record is written out byte by byte.
The model's choice: a slot already clear-pending is judged like any other (log entry 33); the more-indicator is sent as 1
or 0, and bits 7 to 4 of byte 4 of the slot record as 0 (log entry 20). -/
def Obligations.ConditionsReadAndCleared : Prop :=
  (∀ (p : Port) (tag : Option Byte) (n : Nat) (s s' : State), Asked .conditions p tag (.readConditions n) s s' →
    (75 ≤ n → exec (.readConditions p) s = .next (s'.answer p tag (.plain .range .conditionSlot)))
    ∧ (n < 75 → ∀ sel all : List SlotNo,
      all = (List.finRange 75).filter (fun i => decide (n ≤ i.val) && (s.conditions.slots.get i).latched) →
      sel = all.take 8 →
      ∃ t, exec (.readConditions p) s = .next (State.answer p tag
          (.done (natBytes 1 sel.length ++ [if 8 < all.length then 1 else 0]
            ++ sel.flatMap fun i => encodeSlot i (t.conditions.slots.get i))) t)
        ∧ t = { s' with conditions := t.conditions }
        ∧ (∀ i, t.conditions.slots.get i
            = if i ∈ sel then
                { s.conditions.slots.get i with seenBy := (s.conditions.slots.get i).seenBy.add p }
              else s.conditions.slots.get i)
        ∧ (∀ q, (t.conditions.attention q).mask = (s.conditions.attention q).mask
          ∧ (t.conditions.attention q).mode = (s.conditions.attention q).mode
          ∧ (t.conditions.attention q).latch = (s.conditions.attention q).latch)
        ∧ (s.conditions.Lawful → t.conditions.Lawful)))
  ∧ (∀ (p : Port) (tag : Option Byte) (list : List Byte) (s s' : State),
    Asked .conditions p tag (.clearConditions list) s s' →
    (16 < list.length → exec (.clearConditions p) s = .next (s'.answer p tag (.plain .range .clearCount)))
    ∧ (list.length ≤ 16 → (∃ b ∈ list, 75 ≤ b.toNat) →
      exec (.clearConditions p) s = .next (s'.answer p tag (.plain .range .conditionSlot)))
    ∧ (∀ (is : List SlotNo) (results : List Byte) (slots : Vector Slot 75),
      list = is.map (fun i => BitVec.ofNat 8 i.val) → is.length ≤ 16 →
      (results, slots) = is.foldl
        (fun x i =>
          (x.1 ++ [BitVec.ofNat 8 i.val, (clearOne s.lines p i (x.2.get i)).1.code],
            put x.2 i (clearOne s.lines p i (x.2.get i)).2))
        ([], s.conditions.slots) →
      ∃ t, exec (.clearConditions p) s = .next (State.answer p tag (.done (natBytes 1 is.length ++ results)) t)
        ∧ t = { s' with conditions := t.conditions }
        ∧ t.conditions.slots = slots
        ∧ (∀ j, j ∉ is → t.conditions.slots.get j = s.conditions.slots.get j)
        ∧ (∀ q, (t.conditions.attention q).mask = (s.conditions.attention q).mask
          ∧ (t.conditions.attention q).mode = (s.conditions.attention q).mode
          ∧ (t.conditions.attention q).latch = (s.conditions.attention q).latch)
        ∧ (s.conditions.Lawful → t.conditions.Lawful)))
  ∧ (∀ (lines : Vector FaultLine 8) (p : Port) (i : SlotNo) (t : Slot),
    (t.latched = false ∨ t.seenBy.has p = false → clearOne lines p i t = (.notCleared, t))
    ∧ (t.latched = true → t.seenBy.has p = true →
      (∀ l : Line, i = lineSlot l → (lines.get l).config.sensitivity = .edgeAndLevel → (lines.get l).asserted = true →
        clearOne lines p i t = (.clearPending, { t with clearPending := true }))
      ∧ ((∀ l : Line, i = lineSlot l →
          (lines.get l).config.sensitivity = .edge ∨ (lines.get l).asserted = false) →
        clearOne lines p i t = (.cleared, ⟨false, 0, none, ⟨false, false, false⟩, false⟩))))
  ∧ ClearResult.cleared.code = 0 ∧ ClearResult.clearPending.code = 1 ∧ ClearResult.notCleared.code = 2
  ∧ (∀ (i : SlotNo) (t : Slot),
    encodeSlot i t =
      [BitVec.ofNat 8 i.val, BitVec.ofNat 8 t.occurrences]
        ++ (match t.lastEpoch with | some n => word2 n.toNat | none => [0, 0])
        ++ [BitVec.ofNat 8
          (flag t.clearPending 1 + flag t.seenBy.a 2 + flag t.seenBy.b 4 + flag t.seenBy.s 8)])

/-- SET ATTENTION replaces the port's mask and mode; ACKNOWLEDGE clears its latch; the initialize notice clears every
slot and latch and keeps masks and modes. The lines are formed anew. -/
def Obligations.AttentionSetAcknowledgedAndInitialized : Prop :=
  (∀ (p : Port) (tag : Option Byte) (mask : Mask24) (m : Nat) (s s' : State),
    Asked .conditions p tag (.setAttention mask m) s s' →
    ((∃ k, 19 ≤ k ∧ mask.getLsbD k = true) →
      exec (.setAttention p) s = .next (s'.answer p tag (.plain .range .attentionMask)))
    ∧ ((∀ k, 19 ≤ k → mask.getLsbD k = false) → 2 ≤ m →
      exec (.setAttention p) s = .next (s'.answer p tag (.plain .range .attentionMode)))
    ∧ (∀ mode, (∀ k, 19 ≤ k → mask.getLsbD k = false) → m = 0 ∧ mode = .edge ∨ m = 1 ∧ mode = .level →
      ∃ t, exec (.setAttention p) s = .next (State.answer p tag
          (.done (natBytes 3 mask.toNat ++ natBytes 1 m)) t)
        ∧ t = { s' with conditions := t.conditions } ∧ t.conditions.slots = s.conditions.slots
        ∧ (t.conditions.attention p).mask = mask ∧ (t.conditions.attention p).mode = mode
        ∧ (∀ q, (t.conditions.attention q).latch = (s.conditions.attention q).latch)
        ∧ (s.conditions.Lawful → t.conditions.Lawful
          ∧ ∀ q, q ≠ p → t.conditions.attention q = s.conditions.attention q)))
  ∧ (∀ (p : Port) (tag : Option Byte) (s s' : State), Asked .conditions p tag .acknowledge s s' →
    ∃ t, exec (.acknowledge p) s = .next (State.answer p tag (.done []) t)
      ∧ t = { s' with conditions := t.conditions } ∧ t.conditions.slots = s.conditions.slots
      ∧ (t.conditions.attention p).latch = false
      ∧ (t.conditions.attention p).mask = (s.conditions.attention p).mask
      ∧ (t.conditions.attention p).mode = (s.conditions.attention p).mode
      ∧ (s.conditions.Lawful → t.conditions.Lawful
        ∧ ∀ q, q ≠ p → t.conditions.attention q = s.conditions.attention q))
  ∧ (∀ s s' : State, s.take (Message.isInitNotice .conditionTable) = some (.initNotice .conditionTable, s') →
    ∃ t, exec .conditionTableInitialize s = .next t
      ∧ t = { s' with conditions := t.conditions, transit := s'.transit ++ [.initReport .conditionTable] }
      ∧ (∀ i, t.conditions.slots.get i = ⟨false, 0, none, ⟨false, false, false⟩, false⟩)
      ∧ (∀ p, (t.conditions.attention p).mask = (s.conditions.attention p).mask
        ∧ (t.conditions.attention p).mode = (s.conditions.attention p).mode
        ∧ (t.conditions.attention p).latch = false ∧ (t.conditions.attention p).line = false))

/-! ## Ports and frames -/

/-- A complete frame is judged and taken at the event that completes it: discarded, refused during the load, answered
by the Port Interface, or handed to its owner, by the rows of the request catalogue and of the configuration items. An
owner takes the requests of one port in the order sent. Activation readiness, and the codes of ports, modes, causes, store
states, enumerations and items, are written out. The model's choice: IDENTIFY and READ_STATUS as cases of
REQUEST_FRAME_COMPLETE (log entry 4), the bytes a port receives as the operand (log entry 7), dispatched requests in
transit (log entry 2), and the codes of roles (log entry 20). -/
def Obligations.CompleteFrameJudgedAndTaken : Prop :=
  (∀ (p : Port) (bytes f : List Byte) (i : PortInterfaces) (s : State), s.phase = .running →
    s.ports.bytes p bytes = (i, some f) →
    (crc8 f.dropLast ≠ f.getLastD 0 ∨ (f.getD 0 0).extractLsb' 0 4 ≠ 0
        ∨ (f.getD 0 0).extractLsb' 4 4 = 15 ∧ p ≠ .s
        ∨ (f.getD 0 0).extractLsb' 4 4 ≠ 15 ∧ (f.getD 0 0).extractLsb' 4 4 ≠ s.ports.unitAddress →
      exec (.requestFrameComplete p bytes) s = .next { s with ports := i })
    ∧ (∀ (a : BitVec 4) (tag code : Byte) (payload : List Byte), payload.length ≤ 60 →
      f = buildFrame (a.setWidth 8 <<< 4) tag code payload → a ≠ 15 → a = s.ports.unitAddress →
      (s.licence.loading = true →
        exec (.requestFrameComplete p bytes) s
          = .next (State.answer p (some tag) (.plain .busy .startUpLoad) { s with ports := i }))
      ∧ (s.licence.loading = false →
        (parseRequest code payload = .unknown →
          exec (.requestFrameComplete p bytes) s
            = .next (State.answer p (some tag) .unknownRequest { s with ports := i }))
        ∧ (parseRequest code payload = .malformed →
          exec (.requestFrameComplete p bytes) s
            = .next (State.answer p (some tag) .malformed { s with ports := i }))
        ∧ (parseRequest code payload = .badItem →
          exec (.requestFrameComplete p bytes) s
            = .next (State.answer p (some tag) (.plain .range .item) { s with ports := i }))
        ∧ (∀ o q, parseRequest code payload = .request o q →
          exec (.requestFrameComplete p bytes) s
            = .next { s with ports := i, transit := s.transit ++ [.request o p (some tag) q] })
        ∧ (code = 0x01 → payload = [] →
          exec (.identify p bytes) s = .next (State.answer p (some tag)
            (.done [0x08, 0x40, 0x01, a.setWidth 8, portCode p]) { s with ports := i })
          ∧ exec (.requestFrameComplete p bytes) s = exec (.identify p bytes) s)
        ∧ (code = 0x02 → payload = [] →
          exec (.readStatus p bytes) s = .next (State.answer p (some tag)
            (.done ([s.mode.mode.code] ++ s.mode.cause.bytes
              ++ [portCodeOr s.authority.holder, portCodeOr s.authority.reserve]
              ++ (match s.plan.pendingActivation with
                | none => [0, 0, 0, 255]
                | some x => [1] ++ natBytes 2 x.target.toNat ++ [BitVec.ofNat 8 (x.overdue.getD 255)])
              ++ [if s.ready then 1 else 0, s.licence.storeState.code]
              ++ natBytes 2 s.timebase.counter.toNat ++ natBytes 2 s.plan.number.toNat
              ++ natBytes 2 s.plan.revision.toNat ++ [BitVec.ofNat 8 s.level.reports.length])) { s with ports := i })
          ∧ exec (.requestFrameComplete p bytes) s = exec (.readStatus p bytes) s)))
    ∧ (∀ (tag code : Byte) (payload : List Byte), payload.length ≤ 60 → p = .s →
      f = buildFrame 0xF0 tag code payload →
      (code = 0x31 → payload = [] → s.licence.loading = false →
        exec (.requestFrameComplete p bytes) s
          = .next { s with ports := i, transit := s.transit ++ [.request .mode .s none .siteStandby] })
      ∧ (code ≠ 0x31 ∨ payload ≠ [] ∨ s.licence.loading = true →
        exec (.requestFrameComplete p bytes) s = .next { s with ports := i })))
  ∧ (∀ (header tag code : Byte) (payload : List Byte),
    buildFrame header tag code payload = header :: tag :: code :: BitVec.ofNat 8 payload.length :: payload
      ++ [crc8 (header :: tag :: code :: BitVec.ofNat 8 payload.length :: payload)])
  ∧ crc8 [0x30, 0x05, 0x01, 0x00] = 0x7C ∧ crc8 [] = 0
  ∧ (∀ (bytes : List Byte) (b : Byte),
    crc8 (bytes ++ [b])
      = Nat.repeat (fun c : Byte => if c.getLsbD 7 then (c <<< 1) ^^^ 0x07 else c <<< 1) 8 (crc8 bytes ^^^ b))
  ∧ (∀ (code : Byte) (o : Owner) (q : Request), (code, o, q) ∈
      ([ (0x10, .authority, .claim), (0x11, .authority, .reserve), (0x12, .authority, .release),
         (0x13, .authority, .keepalive), (0x21, .plan, .stageClear), (0x22, .plan, .stageCopy), (0x25, .plan, .disarm),
         (0x31, .mode, .siteStandby), (0x32, .mode, .initializeSite), (0x43, .conditions, .acknowledge),
         (0x51, .level, .flushReports), (0x61, .licence, .licenceCommit), (0x62, .licence, .licenceErase)]
        : List (Byte × Owner × Request)) → parseRequest code [] = .request o q)
  ∧ parseRequest 0x01 [] = .identify ∧ parseRequest 0x02 [] = .readStatus
  ∧ (∀ (code : Byte) (size : Nat) (payload : List Byte), (code, size) ∈
      ([ (0x01, 0), (0x02, 0), (0x10, 0), (0x11, 0), (0x12, 0), (0x13, 0), (0x20, 21), (0x21, 0), (0x22, 0), (0x23, 2),
         (0x24, 5), (0x25, 0), (0x26, 2), (0x27, 1), (0x28, 1), (0x30, 1), (0x31, 0), (0x32, 0), (0x35, 3), (0x40, 1),
         (0x42, 4), (0x43, 0), (0x50, 1), (0x51, 0), (0x60, 16), (0x61, 0), (0x62, 0), (0x63, 2)] : List (Byte × Nat)) →
      payload.length ≠ size → parseRequest code payload = .malformed)
  ∧ (∀ (code : Byte) (payload : List Byte), code ∉
      ([ 0x01, 0x02, 0x10, 0x11, 0x12, 0x13, 0x20, 0x21, 0x22, 0x23, 0x24, 0x25, 0x26, 0x27, 0x28, 0x30, 0x31, 0x32, 0x33,
         0x34, 0x35, 0x40, 0x41, 0x42, 0x43, 0x50, 0x51, 0x60, 0x61, 0x62, 0x63] : List Byte) →
      parseRequest code payload = .unknown)
  ∧ (∀ a b c d e : Byte,
    parseRequest 0x23 [a, b] = .request .plan (.readEntry a.toNat b.toNat)
    ∧ parseRequest 0x24 [a, b, c, d, e] = .request .plan (.armActivation (a ++ b) c.toNat (d ++ e))
    ∧ parseRequest 0x26 [a, b] = .request .plan (.activateNow (a ++ b))
    ∧ (∀ ch : Chan, a.toNat = ch.val →
      parseRequest 0x27 [a] = .request (.sequencer ch) (.restartChannel a)
      ∧ parseRequest 0x28 [a] = .request (.sequencer ch) (.readChannel a))
    ∧ (8 ≤ a.toNat →
      parseRequest 0x27 [a] = .request .sequencerBlock (.restartChannel a)
      ∧ parseRequest 0x28 [a] = .request .sequencerBlock (.readChannel a))
    ∧ parseRequest 0x30 [a] = .request .mode (.setMode a.toNat)
    ∧ parseRequest 0x35 [a, b, c] = .request .timebase (.setEpoch a.toNat (number2 b c))
    ∧ parseRequest 0x40 [a] = .request .conditions (.readConditions a.toNat)
    ∧ parseRequest 0x42 [a, b, c, d] = .request .conditions (.setAttention (a ++ b ++ c) d.toNat)
    ∧ parseRequest 0x50 [a] = .request .level (.readReports a.toNat)
    ∧ parseRequest 0x63 [a, b] = .request .licence (.readLicence a.toNat b.toNat))
  ∧ (∀ payload : List Byte, parseRequest 0x41 payload = .request .conditions (.clearConditions payload))
  ∧ (∀ n b0 b1 b2 b3 b4 b5 b6 b7 b8 b9 b10 b11 b12 b13 b14 b15 b16 b17 b18 b19 : Byte,
    parseRequest 0x20 [n, b0, b1, b2, b3, b4, b5, b6, b7, b8, b9, b10, b11, b12, b13, b14, b15, b16, b17, b18, b19]
      = .request .plan (.stageEntry n.toNat
        { service := b0.toNat
          rxFreq := number3 b1 b2 b3
          txFreq := number3 b4 b5 b6
          gainTarget := number2 b7 b8
          gainMode := b9.toNat
          rampRate := if b10.getLsbD 0 then some b11.toNat else none
          squelchOpen := levelOf b12 b13
          squelchClose := levelOf b14 b15
          squelchHoldoff := b16.toNat
          squelchSource := if b10.getLsbD 1 then some b17.toNat else none
          reflLimit := if b10.getLsbD 2 then some (levelOf b18 b19) else none })
    ∧ parseRequest 0x60 [n, b0, b1, b2, b3, b4, b5, b6, b7, b8, b9, b10, b11, b12, b13, b14]
      = .request .licence (.licenceEntry n.toNat
        (if b0.getLsbD 0 then some
          { txLow := number3 b1 b2 b3
            txHigh := number3 b4 b5 b6
            gainCeiling := number2 b7 b8
            rxLow := if b0.getLsbD 1 then some (number3 b9 b10 b11) else none
            rxHigh := if b0.getLsbD 2 then some (number3 b12 b13 b14) else none }
        else none)))
  ∧ (∀ (code : Byte) (i : Item) (o : Owner) (valueBytes paramBytes : Nat) (bytes : List Byte),
    (code, i, o, valueBytes, paramBytes) ∈
      ([ (0x01, .applyMode, .plan, 1, 0), (0x02, .raster, .plan, 2, 0), (0x03, .keepaliveLimit, .authority, 1, 0),
         (0x04, .tuneLimit, .sequencerBlock, 1, 0), (0x05, .settleEpochs, .sequencerBlock, 1, 0),
         (0x06, .foldbackStep, .sequencerBlock, 1, 0), (0x07, .recoverWindows, .sequencerBlock, 1, 0),
         (0x08, .reflLimit, .sequencerBlock, 2, 0), (0x09, .carrierFloor, .sequencerBlock, 2, 0),
         (0x0A, .windowLength, .level, 2, 0), (0x0B, .sampleFormat, .level, 1, 0), (0x0C, .reportSelect, .level, 3, 0),
         (0x0D, .reportThreshold, .level, 1, 0), (0x0E, .line, .faultLines, 5, 1)]
        : List (Byte × Item × Owner × Nat × Nat)) →
    parseRequest 0x33 (code :: bytes)
      = (if bytes.length = valueBytes then .request o (.configure i bytes) else .malformed)
    ∧ parseRequest 0x34 (code :: bytes)
      = (if bytes.length = paramBytes then .request o (.readConfig i bytes) else .malformed))
  ∧ (∀ (code : Byte) (i : Item) (o : Owner) (paramBytes : Nat) (bytes : List Byte),
    (code, i, o, paramBytes) ∈
      ([ (0x10, .epochPeriod, .timebase, 0), (0x11, .latestResult, .level, 2), (0x12, .attention_, .conditions, 0)]
        : List (Byte × Item × Owner × Nat)) →
    parseRequest 0x33 (code :: bytes) = .request o (.configure i bytes)
    ∧ parseRequest 0x34 (code :: bytes)
      = (if bytes.length = paramBytes then .request o (.readConfig i bytes) else .malformed))
  ∧ (∀ (code : Byte) (bytes : List Byte), code = 0 ∨ code = 0x0F ∨ 0x12 < code.toNat →
    parseRequest 0x33 (code :: bytes) = .badItem ∧ parseRequest 0x34 (code :: bytes) = .badItem)
  ∧ parseRequest 0x33 [] = .badItem ∧ parseRequest 0x34 [] = .badItem
  ∧ (∀ s : State, s.ready = true ↔ ∀ c, (s.channels.get c).state ≠ .tuning ∧ (s.channels.get c).state ≠ .settling)
  ∧ (∀ n : Nat,
    natBytes 1 n = [BitVec.ofNat 8 n]
    ∧ natBytes 2 n = [BitVec.ofNat 8 (n / 256), BitVec.ofNat 8 n]
    ∧ natBytes 3 n = [BitVec.ofNat 8 (n / 65536), BitVec.ofNat 8 (n / 256), BitVec.ofNat 8 n])
  ∧ [portCode .a, portCode .b, portCode .s] = [0, 1, 2]
  ∧ (∀ p : Port, portCodeOr (some p) = portCode p) ∧ portCodeOr none = 255
  ∧ [SiteMode.standby, .operate].map SiteMode.code = [0, 1]
  ∧ (∀ (p : Port) (n : Line),
    StandbyCause.bytes .reset = [0, 255] ∧ StandbyCause.bytes (.request p) = [1, portCode p]
    ∧ StandbyCause.bytes (.emergency p) = [2, portCode p] ∧ StandbyCause.bytes (.faultLine n) = [3, BitVec.ofNat 8 n.val])
  ∧ [StoreState.blank, .programming, .protected_, .erasing, .incomplete].map StoreState.code = [0, 1, 2, 3, 4]
  ∧ [ApplyMode.wholePlan, .perEntry].map ApplyMode.code = [0, 1]
  ∧ [SampleFormat.offsetBinary, .twosComplement].map SampleFormat.code = [0, 1]
  ∧ [Polarity.activeLow, .activeHigh].map Polarity.code = [0, 1]
  ∧ [Sensitivity.edge, .edgeAndLevel].map Sensitivity.code = [0, 1]
  ∧ [LineAction.report, .shutdown, .standby].map LineAction.code = [0, 1, 2]
  ∧ [Role.idle, .holder, .reserve].map Role.code = [0, 1, 2]
  ∧ [AttentionMode.edge, .level].map AttentionMode.code = [0, 1]
  ∧ [Item.applyMode, .raster, .keepaliveLimit, .tuneLimit, .settleEpochs, .foldbackStep, .recoverWindows, .reflLimit,
      .carrierFloor, .windowLength, .sampleFormat, .reportSelect, .reportThreshold, .line, .epochPeriod, .latestResult,
      .attention_].map Item.code
    = [0x01, 0x02, 0x03, 0x04, 0x05, 0x06, 0x07, 0x08, 0x09, 0x0A, 0x0B, 0x0C, 0x0D, 0x0E, 0x10, 0x11, 0x12]
  ∧ (∀ u : AuthorityUnit,
    (∀ p, u.holder = some p → (u.get p).role = .holder) ∧ (u.holder = none ↔ ∀ p, (u.get p).role ≠ .holder)
    ∧ (∀ p, u.reserve = some p → (u.get p).role = .reserve) ∧ (u.reserve = none ↔ ∀ p, (u.get p).role ≠ .reserve))
  ∧ (∀ (o : Owner) (p : Port) (tag : Option Byte) (q : Request) (s s' : State),
    Asked o p tag q s s' ↔
      s.TakesFirst (fun x => ∃ tag' q', x = .request o p tag' q') (.request o p tag q) s')

/-- The events of the ports: what completes a frame, what ends or discards one, byte by byte, what takes and fills the
response stores, what SDO carries, and the frame of every response with its outcome and detail codes. The model's choice:
the receiver's corners on Port S (log entries 8 and 9), the seat of a response that awaits its start (log entry 10), the
rest of a period after a length byte above 60, the header of EMPTY_SLOT, and SDO at 0x00 during the transfer byte, with no
period open and in a period that straddles the end of a reset (log entry 11). -/
def Obligations.PortsReceiveAndTransmit : Prop :=
  (∀ (s : State) (header tag code : Byte) (payload f : List Byte), payload.length ≤ 60 →
    f = buildFrame header tag code payload →
    (s.ports.a.period = .closed →
      s.ports.bytes .a (0x01 :: f) = ({ s.ports with a := { s.ports.a with period := .ignored } }, some f))
    ∧ (s.ports.b.period = .closed →
      s.ports.bytes .b (0x01 :: f) = ({ s.ports with b := { s.ports.b with period := .ignored } }, some f))
    ∧ (s.ports.s.receiver = .ready →
      s.ports.bytes .s f = ({ s.ports with s := { s.ports.s with receiver := .waitingIdle } }, some f)))
  ∧ (∀ s : State, s.phase = .running →
    (∀ p, (s.ports.sync p).period = .closed →
      exec (.portReadTransfer p) s = .next
        { s with
          ports :=
            s.ports.setSync p ⟨.read ((s.ports.sync p).slot.getD
              (buildFrame (s.ports.unitAddress.setWidth 8 <<< 4 ||| 0x08) 0 0x02 [])), none⟩ })
    ∧ (∀ p, exec (.selectPeriodEnd p) s
      = .next { s with ports := s.ports.setSync p ⟨.closed, (s.ports.sync p).slot⟩ })
    ∧ (∀ (length : Byte) (got : List Byte), 60 < length.toNat → got.length = 3 →
      (s.ports.a.period = .write got →
        exec (.lengthByteAbove60 .a length) s
          = .next { s with ports := { s.ports with a := { s.ports.a with period := .ignored } } })
      ∧ (s.ports.b.period = .write got →
        exec (.lengthByteAbove60 .b length) s
          = .next { s with ports := { s.ports with b := { s.ports.b with period := .ignored } } })
      ∧ (s.ports.s.receiver = .inFrame got →
        exec (.lengthByteAbove60 .s length) s
          = .next { s with ports := { s.ports with s := { s.ports.s with receiver := .waitingIdle } } }))
    ∧ exec .portSIdleDetect s = .next { s with ports := { s.ports with s := { s.ports.s with receiver := .ready } } }
    ∧ exec .portSFramingError s
        = .next { s with ports := { s.ports with s := { s.ports.s with receiver := .waitingIdle } } }
    ∧ (∀ f started, s.ports.s.transmitting = some ⟨f, started⟩ →
      exec .responseTransmissionStart s
        = .next { s with ports := { s.ports with s := { s.ports.s with transmitting := some ⟨f, true⟩ } } })
    ∧ (∀ f, s.ports.s.transmitting = some ⟨f, true⟩ → s.ports.s.waiting = none →
      exec .responseTransmissionEnd s
        = .next { s with ports := { s.ports with s := { s.ports.s with transmitting := none } } })
    ∧ (∀ f f', s.ports.s.transmitting = some ⟨f, true⟩ → s.ports.s.waiting = some f' →
      exec .responseTransmissionEnd s
        = .next { s with ports := { s.ports with
            s := { s.ports.s with transmitting := some ⟨f', false⟩, waiting := none } } }))
  ∧ (∀ (i : PortInterfaces) (frame : List Byte),
    i.respond .a frame = { i with a := { i.a with slot := some frame } }
    ∧ i.respond .b frame = { i with b := { i.b with slot := some frame } }
    ∧ (i.s.transmitting = none → i.respond .s frame = { i with s := { i.s with transmitting := some ⟨frame, false⟩ } })
    ∧ (i.s.transmitting ≠ none → i.respond .s frame = { i with s := { i.s with waiting := some frame } }))
  ∧ (∀ (s : State) (rest bytes : List Byte), s.phase = .running →
    (s.ports.a.period = .read rest →
      exec (.requestFrameComplete .a bytes) s = .next
        { s with ports := { s.ports with a := { s.ports.a with period := .read (rest.drop bytes.length) } } })
    ∧ (s.ports.b.period = .read rest →
      exec (.requestFrameComplete .b bytes) s = .next
        { s with ports := { s.ports with b := { s.ports.b with period := .read (rest.drop bytes.length) } } }))
  ∧ (∀ (i : SyncInterface),
    (∀ b rest, i.period = .read (b :: rest) → i.sdo = b)
    ∧ (i.period = .read [] ∨ i.period = .closed ∨ i.period = .ignored ∨ (∃ got, i.period = .write got) → i.sdo = 0))
  ∧ (∀ (s : State) (b : Byte), s.phase = .running →
    (s.ports.a.period = .closed →
      (b = 0x01 →
        exec (.requestFrameComplete .a [b]) s
          = .next { s with ports := { s.ports with a := { s.ports.a with period := .write [] } } })
      ∧ (b = 0x02 → exec (.requestFrameComplete .a [b]) s = exec (.portReadTransfer .a) s)
      ∧ (b ≠ 0x01 → b ≠ 0x02 →
        exec (.requestFrameComplete .a [b]) s
          = .next { s with ports := { s.ports with a := { s.ports.a with period := .ignored } } }))
    ∧ (s.ports.b.period = .closed →
      (b = 0x01 →
        exec (.requestFrameComplete .b [b]) s
          = .next { s with ports := { s.ports with b := { s.ports.b with period := .write [] } } })
      ∧ (b = 0x02 → exec (.requestFrameComplete .b [b]) s = exec (.portReadTransfer .b) s)
      ∧ (b ≠ 0x01 → b ≠ 0x02 →
        exec (.requestFrameComplete .b [b]) s
          = .next { s with ports := { s.ports with b := { s.ports.b with period := .ignored } } })))
  ∧ (∀ (s : State) (bytes : List Byte), s.phase = .running →
    (s.ports.a.period = .ignored → exec (.requestFrameComplete .a bytes) s = .next s)
    ∧ (s.ports.b.period = .ignored → exec (.requestFrameComplete .b bytes) s = .next s)
    ∧ (s.ports.s.receiver = .waitingIdle → exec (.requestFrameComplete .s bytes) s = .next s))
  ∧ (∀ (s : State) (got : List Byte) (b : Byte), s.phase = .running →
    (got.length < 3 ∨ got.length = 3 ∧ b.toNat ≤ 60
        ∨ 4 ≤ got.length ∧ got.length < 4 + (got.getD 3 0).toNat →
      (s.ports.a.period = .write got →
        exec (.requestFrameComplete .a [b]) s
          = .next { s with ports := { s.ports with a := { s.ports.a with period := .write (got ++ [b]) } } })
      ∧ (s.ports.b.period = .write got →
        exec (.requestFrameComplete .b [b]) s
          = .next { s with ports := { s.ports with b := { s.ports.b with period := .write (got ++ [b]) } } })
      ∧ (s.ports.s.receiver = .inFrame got ∨ s.ports.s.receiver = .ready ∧ got = [] →
        exec (.requestFrameComplete .s [b]) s
          = .next { s with ports := { s.ports with s := { s.ports.s with receiver := .inFrame (got ++ [b]) } } }))
    ∧ (4 ≤ got.length → got.length = 4 + (got.getD 3 0).toNat → (got.getD 3 0).toNat ≤ 60 →
      (s.ports.a.period = .write got →
        s.ports.bytes .a [b] = ({ s.ports with a := { s.ports.a with period := .ignored } }, some (got ++ [b])))
      ∧ (s.ports.b.period = .write got →
        s.ports.bytes .b [b] = ({ s.ports with b := { s.ports.b with period := .ignored } }, some (got ++ [b])))
      ∧ (s.ports.s.receiver = .inFrame got →
        s.ports.bytes .s [b]
          = ({ s.ports with s := { s.ports.s with receiver := .waitingIdle } }, some (got ++ [b]))))
    ∧ (got.length = 3 → 60 < b.toNat →
      (s.ports.a.period = .write got →
        exec (.requestFrameComplete .a [b]) s
          = .next { s with ports := { s.ports with a := { s.ports.a with period := .ignored } } })
      ∧ (s.ports.b.period = .write got →
        exec (.requestFrameComplete .b [b]) s
          = .next { s with ports := { s.ports with b := { s.ports.b with period := .ignored } } })
      ∧ (s.ports.s.receiver = .inFrame got →
        exec (.requestFrameComplete .s [b]) s
          = .next { s with ports := { s.ports with s := { s.ports.s with receiver := .waitingIdle } } })))
  ∧ (∀ (s : State) (p : Port) (b : Byte) (bs : List Byte), s.phase = .running →
    exec (.requestFrameComplete p []) s = .next s
    ∧ ((s.ports.bytes p [b]).2 = none →
      exec (.requestFrameComplete p (b :: bs)) s
        = exec (.requestFrameComplete p bs) { s with ports := (s.ports.bytes p [b]).1 })
    ∧ ((s.ports.bytes p [b]).2 ≠ none →
      exec (.requestFrameComplete p (b :: bs)) s = exec (.requestFrameComplete p [b]) s))
  ∧ (∀ (p : Port) (t : Byte) (x : Reply) (s : State),
    s.answer p (some t) x
        = { s with
            ports := (s.ports.respond p
              (buildFrame (s.ports.unitAddress.setWidth 8 <<< 4 ||| 0x08) t x.code x.payload)) }
    ∧ s.answer p none x = s)
  ∧ (∀ (bytes : List Byte) (k : RefusalKind) (d : Detail) (n : Byte),
    (Reply.done bytes).code = 0x00 ∧ (Reply.done bytes).payload = bytes
    ∧ Reply.accepted.code = 0x01 ∧ Reply.accepted.payload = []
    ∧ (Reply.refused k d n).code = k.code ∧ (Reply.refused k d n).payload = [d.code, n]
    ∧ Reply.plain k d = .refused k d 255
    ∧ Reply.unknownRequest.code = 0x1E ∧ Reply.unknownRequest.payload = []
    ∧ Reply.malformed.code = 0x1F ∧ Reply.malformed.payload = [])
  ∧ [RefusalKind.role, .held, .mode, .state, .range, .plan, .licence, .notReady, .faultPresent, .busy].map
      RefusalKind.code
    = [0x10, 0x11, 0x12, 0x13, 0x14, 0x15, 0x16, 0x17, 0x18, 0x19]
  ∧ (∀ (d : Detail) (code : Byte), (d, code) ∈
      ([ (.none_, 0xFF), (.service, 0x01), (.rxFreq, 0x02), (.txFreq, 0x03), (.gainTarget, 0x04), (.gainMode, 0x05),
         (.rampRate, 0x06), (.squelchOpen, 0x07), (.squelchHoldoff, 0x08), (.squelchSource, 0x09), (.channel, 0x0A),
         (.table, 0x0B), (.planNumber, 0x0C), (.target, 0x0D), (.txClash, 0x21), (.rxTxClash, 0x22),
         (.sourceInvalid, 0x23), (.offRaster, 0x24), (.activationPending, 0x30), (.applyMode, 0x31),
         (.storeNotBlank, 0x32), (.workingEmpty, 0x33), (.nothingPending, 0x34), (.notShutdown, 0x35),
         (.measurementActive, 0x36), (.noHolder, 0x37), (.sequencerBusy, 0x38), (.alreadyHolder, 0x39), (.slot, 0x41),
         (.txLow, 0x42), (.txHigh, 0x43), (.ceiling, 0x44), (.rxWindow, 0x45), (.rxLow, 0x46), (.rxHigh, 0x47),
         (.storeInFlight, 0x50), (.startUpLoad, 0x51), (.initializing, 0x52), (.noWindow, 0x60), (.gainCeiling, 0x61),
         (.prescale, 0x70), (.modulo, 0x71), (.lineShutdown, 0x80), (.lineStandby, 0x81), (.reportCount, 0x90),
         (.quantity, 0x91), (.readOnly, 0x92), (.mode, 0xA0), (.storeNotProtected, 0xA1), (.line, 0xA2),
         (.lineField, 0xA3), (.holderPresent, 0xB0), (.reservePresent, 0xB1), (.reserveNotPermitted, 0xB2),
         (.noRole, 0xB3), (.keepaliveLimit, 0xB4), (.conditionSlot, 0xC0), (.clearCount, 0xC1), (.attentionMask, 0xC2),
         (.attentionMode, 0xC3), (.item, 0xD0), (.value, 0xD1)] : List (Detail × Byte)) → d.code = code)

/-! ## Reset and supply -/

/-- A hardware reset puts every block into its reset values and keeps the non-volatile licence memory; loss of supply
leaves the same memory; the end of the reset starts the load, the first reset write and the sampling of the pins. The
model's choice: messages between blocks are lost (log entry 2), the part in reset and without supply (log entries 13 and
15), and the levels at the end of the reset as operand (log entry 14). -/
def Obligations.ResetValuesAndEndOfReset : Prop :=
  (∀ (s : State) (i : Instr) (phase : Phase),
    i = .hardwareReset ∧ phase = .inReset ∨ i = .lossOfSupply ∧ phase = .unpowered →
    ∃ t, exec i s = .next t ∧ t.phase = phase ∧ t.transit = [] ∧ t.pending = s.pending
      ∧ (∀ c, t.plan.staged.get c = PlanEntry.default ∧ t.plan.active.get c = PlanEntry.default)
      ∧ t.plan.number = 0 ∧ t.plan.revision = 0 ∧ t.plan.pendingActivation = none
      ∧ t.plan.applyMode = .wholePlan ∧ t.plan.raster = 25
      ∧ t.licence.storeState = s.licence.storeState ∧ t.licence.stored = s.licence.stored
      ∧ t.licence.checkValue = s.licence.checkValue ∧ (∀ n, t.licence.working.get n = none)
      ∧ t.licence.loading = false
      ∧ t.timebase = ⟨1, 1000, 0, 0⟩ ∧ t.params = ⟨50, 20, 20, 8, 16384, -32768⟩
      ∧ (∀ c, t.channels.get c =
          { entry := PlanEntry.default, state := .off, subPhase := none
            tuneCount := 0, blankingCount := 0, settleCount := 0, gain := 0, fold := 0, belowCount := 0, recoverCount := 0
            freshRx := false, settlingMean := none, demandedRx := 0, demandedTx := 0
            rxWritten := false, txWritten := false, demandedGain := 0
            lockRx := (s.channels.get c).lockRx, lockTx := (s.channels.get c).lockTx })
      ∧ t.link = ⟨(List.finRange 8).flatMap fun c =>
          [⟨⟨c, .rxSyn⟩, 0⟩, ⟨⟨c, .txSyn⟩, 0⟩, ⟨⟨c, .gain⟩, 0⟩], none⟩
      ∧ (∀ c q, t.level.meter c q = ⟨⟨0, 0, 0, none, none⟩, none⟩)
      ∧ t.level.reports = [] ∧ t.level.lossMark = false ∧ t.level.windowLength = 64
      ∧ t.level.sampleFormat = .offsetBinary ∧ t.level.reportSelect = 0 ∧ t.level.reportThreshold = 24
      ∧ t.level.straddling = false
      ∧ t.authority = ⟨⟨.idle, 0⟩, ⟨.idle, 0⟩, ⟨.idle, 0⟩, 30⟩
      ∧ t.mode = ⟨.standby, .reset, []⟩
      ∧ (∀ n, t.lines.get n = ⟨⟨.activeLow, .edge, .report, 0⟩, true, (s.lines.get n).pinHigh⟩)
      ∧ (∀ i, t.conditions.slots.get i = ⟨false, 0, none, ⟨false, false, false⟩, false⟩)
      ∧ (∀ p, t.conditions.attention p = ⟨0, .edge, false, false⟩)
      ∧ t.ports = ⟨⟨.closed, none⟩, ⟨.closed, none⟩, ⟨.waitingIdle, none, none⟩, s.ports.unitAddress, s.ports.baud⟩
      ∧ ∀ c, t.gate c = false)
  ∧ PlanEntry.default
    = { service := .outOfService, rxFreq := 30000, txFreq := 30025, gainTarget := 0, gainMode := .step
        rampRate := none, squelchOpen := 0, squelchClose := 0, squelchHoldoff := 4, squelchSource := none
        reflLimit := none }
  ∧ (∀ (s : State) (pins : PinSample), s.phase = .inReset →
    ∃ t, exec (.endOfHardwareReset pins) s = .next t
      ∧ t = { s with
          phase := .running
          licence := { s.licence with loading := true }
          channels := t.channels
          link := t.link
          level := { s.level with straddling := pins.sampleFrame }
          lines := t.lines
          ports :=
            { a := ⟨if pins.selA then .ignored else .closed, none⟩
              b := ⟨if pins.selB then .ignored else .closed, none⟩
              s := ⟨.waitingIdle, none, none⟩
              unitAddress := pins.unitAddress
              baud := pins.baud } }
      ∧ (∀ c, t.channels.get c
          = { s.channels.get c with lockRx := pins.lockRx.get c, lockTx := pins.lockTx.get c })
      ∧ (∀ n, t.lines.get n = { s.lines.get n with pinHigh := pins.faultHigh.get n })
      ∧ (∀ w rest, s.link.inFlight = none → s.link.queue = w :: rest → t.link = ⟨rest, some w⟩))

end Obligations
end

