-- ==== Sys2Proof/Laws/State.lean ====
section
/-!
SUPPORT. What each update of the state does to each field: one lemma per field per update, so that no proof unfolds a
record update.
-/

namespace Sys2Proof.Machine

/-! ## State.send -/

@[simp] theorem State.send_pending (ms : List Message) (s : State) : (s.send ms).pending = s.pending := rfl
@[simp] theorem State.send_phase (ms : List Message) (s : State) : (s.send ms).phase = s.phase := rfl
@[simp] theorem State.send_transit (ms : List Message) (s : State) : (s.send ms).transit = s.transit ++ ms := rfl
@[simp] theorem State.send_plan (ms : List Message) (s : State) : (s.send ms).plan = s.plan := rfl
@[simp] theorem State.send_licence (ms : List Message) (s : State) : (s.send ms).licence = s.licence := rfl
@[simp] theorem State.send_timebase (ms : List Message) (s : State) : (s.send ms).timebase = s.timebase := rfl
@[simp] theorem State.send_params (ms : List Message) (s : State) : (s.send ms).params = s.params := rfl
@[simp] theorem State.send_channels (ms : List Message) (s : State) : (s.send ms).channels = s.channels := rfl
@[simp] theorem State.send_link (ms : List Message) (s : State) : (s.send ms).link = s.link := rfl
@[simp] theorem State.send_level (ms : List Message) (s : State) : (s.send ms).level = s.level := rfl
@[simp] theorem State.send_authority (ms : List Message) (s : State) : (s.send ms).authority = s.authority := rfl
@[simp] theorem State.send_mode (ms : List Message) (s : State) : (s.send ms).mode = s.mode := rfl
@[simp] theorem State.send_lines (ms : List Message) (s : State) : (s.send ms).lines = s.lines := rfl
@[simp] theorem State.send_conditions (ms : List Message) (s : State) : (s.send ms).conditions = s.conditions := rfl
@[simp] theorem State.send_ports (ms : List Message) (s : State) : (s.send ms).ports = s.ports := rfl

/-! ## State.wordEnded -/

@[simp] theorem State.wordEnded_pending (s : State) : s.wordEnded.pending = s.pending := rfl
@[simp] theorem State.wordEnded_phase (s : State) : s.wordEnded.phase = s.phase := rfl
@[simp] theorem State.wordEnded_transit (s : State) : s.wordEnded.transit = s.transit := rfl
@[simp] theorem State.wordEnded_plan (s : State) : s.wordEnded.plan = s.plan := rfl
@[simp] theorem State.wordEnded_licence (s : State) : s.wordEnded.licence = s.licence := rfl
@[simp] theorem State.wordEnded_timebase (s : State) : s.wordEnded.timebase = s.timebase := rfl
@[simp] theorem State.wordEnded_params (s : State) : s.wordEnded.params = s.params := rfl
@[simp] theorem State.wordEnded_channels (s : State) : s.wordEnded.channels = s.channels := rfl
@[simp] theorem State.wordEnded_link (s : State) : s.wordEnded.link = s.link := rfl
@[simp] theorem State.wordEnded_authority (s : State) : s.wordEnded.authority = s.authority := rfl
@[simp] theorem State.wordEnded_mode (s : State) : s.wordEnded.mode = s.mode := rfl
@[simp] theorem State.wordEnded_lines (s : State) : s.wordEnded.lines = s.lines := rfl
@[simp] theorem State.wordEnded_conditions (s : State) : s.wordEnded.conditions = s.conditions := rfl
@[simp] theorem State.wordEnded_ports (s : State) : s.wordEnded.ports = s.ports := rfl
@[simp] theorem State.wordEnded_level (s : State) : s.wordEnded.level = { s.level with straddling := false } := rfl

/-- Where no word straddled the end of a reset the end of a word changes nothing. -/
theorem State.wordEnded_of {s : State} (h : s.level.straddling = false) : s.wordEnded = s := by
  cases s with
  | mk _ _ _ _ _ _ _ _ _ l =>
    cases l
    subst h
    rfl

/-! ## State.setChannel -/

@[simp] theorem State.setChannel_pending (c : Chan) (r : Channel) (s : State) : (s.setChannel c r).pending = s.pending := rfl
@[simp] theorem State.setChannel_phase (c : Chan) (r : Channel) (s : State) : (s.setChannel c r).phase = s.phase := rfl
@[simp] theorem State.setChannel_transit (c : Chan) (r : Channel) (s : State) : (s.setChannel c r).transit = s.transit := rfl
@[simp] theorem State.setChannel_plan (c : Chan) (r : Channel) (s : State) : (s.setChannel c r).plan = s.plan := rfl
@[simp] theorem State.setChannel_licence (c : Chan) (r : Channel) (s : State) : (s.setChannel c r).licence = s.licence := rfl
@[simp] theorem State.setChannel_timebase (c : Chan) (r : Channel) (s : State) : (s.setChannel c r).timebase = s.timebase := rfl
@[simp] theorem State.setChannel_params (c : Chan) (r : Channel) (s : State) : (s.setChannel c r).params = s.params := rfl
@[simp] theorem State.setChannel_channels (c : Chan) (r : Channel) (s : State) : (s.setChannel c r).channels = put s.channels c r := rfl
@[simp] theorem State.setChannel_link (c : Chan) (r : Channel) (s : State) : (s.setChannel c r).link = s.link := rfl
@[simp] theorem State.setChannel_level (c : Chan) (r : Channel) (s : State) : (s.setChannel c r).level = s.level := rfl
@[simp] theorem State.setChannel_authority (c : Chan) (r : Channel) (s : State) : (s.setChannel c r).authority = s.authority := rfl
@[simp] theorem State.setChannel_mode (c : Chan) (r : Channel) (s : State) : (s.setChannel c r).mode = s.mode := rfl
@[simp] theorem State.setChannel_lines (c : Chan) (r : Channel) (s : State) : (s.setChannel c r).lines = s.lines := rfl
@[simp] theorem State.setChannel_conditions (c : Chan) (r : Channel) (s : State) : (s.setChannel c r).conditions = s.conditions := rfl
@[simp] theorem State.setChannel_ports (c : Chan) (r : Channel) (s : State) : (s.setChannel c r).ports = s.ports := rfl

/-! ## State.setLine -/

@[simp] theorem State.setLine_pending (n : Line) (l : FaultLine) (s : State) : (s.setLine n l).pending = s.pending := rfl
@[simp] theorem State.setLine_phase (n : Line) (l : FaultLine) (s : State) : (s.setLine n l).phase = s.phase := rfl
@[simp] theorem State.setLine_transit (n : Line) (l : FaultLine) (s : State) : (s.setLine n l).transit = s.transit := rfl
@[simp] theorem State.setLine_plan (n : Line) (l : FaultLine) (s : State) : (s.setLine n l).plan = s.plan := rfl
@[simp] theorem State.setLine_licence (n : Line) (l : FaultLine) (s : State) : (s.setLine n l).licence = s.licence := rfl
@[simp] theorem State.setLine_timebase (n : Line) (l : FaultLine) (s : State) : (s.setLine n l).timebase = s.timebase := rfl
@[simp] theorem State.setLine_params (n : Line) (l : FaultLine) (s : State) : (s.setLine n l).params = s.params := rfl
@[simp] theorem State.setLine_channels (n : Line) (l : FaultLine) (s : State) : (s.setLine n l).channels = s.channels := rfl
@[simp] theorem State.setLine_link (n : Line) (l : FaultLine) (s : State) : (s.setLine n l).link = s.link := rfl
@[simp] theorem State.setLine_level (n : Line) (l : FaultLine) (s : State) : (s.setLine n l).level = s.level := rfl
@[simp] theorem State.setLine_authority (n : Line) (l : FaultLine) (s : State) : (s.setLine n l).authority = s.authority := rfl
@[simp] theorem State.setLine_mode (n : Line) (l : FaultLine) (s : State) : (s.setLine n l).mode = s.mode := rfl
@[simp] theorem State.setLine_lines (n : Line) (l : FaultLine) (s : State) : (s.setLine n l).lines = put s.lines n l := rfl
@[simp] theorem State.setLine_conditions (n : Line) (l : FaultLine) (s : State) : (s.setLine n l).conditions = s.conditions := rfl
@[simp] theorem State.setLine_ports (n : Line) (l : FaultLine) (s : State) : (s.setLine n l).ports = s.ports := rfl

/-! ## State.setPorts -/

@[simp] theorem State.setPorts_pending (i : PortInterfaces) (s : State) : (s.setPorts i).pending = s.pending := rfl
@[simp] theorem State.setPorts_phase (i : PortInterfaces) (s : State) : (s.setPorts i).phase = s.phase := rfl
@[simp] theorem State.setPorts_transit (i : PortInterfaces) (s : State) : (s.setPorts i).transit = s.transit := rfl
@[simp] theorem State.setPorts_plan (i : PortInterfaces) (s : State) : (s.setPorts i).plan = s.plan := rfl
@[simp] theorem State.setPorts_licence (i : PortInterfaces) (s : State) : (s.setPorts i).licence = s.licence := rfl
@[simp] theorem State.setPorts_timebase (i : PortInterfaces) (s : State) : (s.setPorts i).timebase = s.timebase := rfl
@[simp] theorem State.setPorts_params (i : PortInterfaces) (s : State) : (s.setPorts i).params = s.params := rfl
@[simp] theorem State.setPorts_channels (i : PortInterfaces) (s : State) : (s.setPorts i).channels = s.channels := rfl
@[simp] theorem State.setPorts_link (i : PortInterfaces) (s : State) : (s.setPorts i).link = s.link := rfl
@[simp] theorem State.setPorts_level (i : PortInterfaces) (s : State) : (s.setPorts i).level = s.level := rfl
@[simp] theorem State.setPorts_authority (i : PortInterfaces) (s : State) : (s.setPorts i).authority = s.authority := rfl
@[simp] theorem State.setPorts_mode (i : PortInterfaces) (s : State) : (s.setPorts i).mode = s.mode := rfl
@[simp] theorem State.setPorts_lines (i : PortInterfaces) (s : State) : (s.setPorts i).lines = s.lines := rfl
@[simp] theorem State.setPorts_conditions (i : PortInterfaces) (s : State) : (s.setPorts i).conditions = s.conditions := rfl
@[simp] theorem State.setPorts_ports (i : PortInterfaces) (s : State) : (s.setPorts i).ports = i := rfl

/-! ## State.setLicence -/

@[simp] theorem State.setLicence_pending (l : LicenceStore) (s : State) : (s.setLicence l).pending = s.pending := rfl
@[simp] theorem State.setLicence_phase (l : LicenceStore) (s : State) : (s.setLicence l).phase = s.phase := rfl
@[simp] theorem State.setLicence_transit (l : LicenceStore) (s : State) : (s.setLicence l).transit = s.transit := rfl
@[simp] theorem State.setLicence_plan (l : LicenceStore) (s : State) : (s.setLicence l).plan = s.plan := rfl
@[simp] theorem State.setLicence_licence (l : LicenceStore) (s : State) : (s.setLicence l).licence = l := rfl
@[simp] theorem State.setLicence_timebase (l : LicenceStore) (s : State) : (s.setLicence l).timebase = s.timebase := rfl
@[simp] theorem State.setLicence_params (l : LicenceStore) (s : State) : (s.setLicence l).params = s.params := rfl
@[simp] theorem State.setLicence_channels (l : LicenceStore) (s : State) : (s.setLicence l).channels = s.channels := rfl
@[simp] theorem State.setLicence_link (l : LicenceStore) (s : State) : (s.setLicence l).link = s.link := rfl
@[simp] theorem State.setLicence_level (l : LicenceStore) (s : State) : (s.setLicence l).level = s.level := rfl
@[simp] theorem State.setLicence_authority (l : LicenceStore) (s : State) : (s.setLicence l).authority = s.authority := rfl
@[simp] theorem State.setLicence_mode (l : LicenceStore) (s : State) : (s.setLicence l).mode = s.mode := rfl
@[simp] theorem State.setLicence_lines (l : LicenceStore) (s : State) : (s.setLicence l).lines = s.lines := rfl
@[simp] theorem State.setLicence_conditions (l : LicenceStore) (s : State) : (s.setLicence l).conditions = s.conditions := rfl
@[simp] theorem State.setLicence_ports (l : LicenceStore) (s : State) : (s.setLicence l).ports = s.ports := rfl

/-! ## State.setConditions -/

@[simp] theorem State.setConditions_pending (k : ConditionTable) (s : State) : (s.setConditions k).pending = s.pending := rfl
@[simp] theorem State.setConditions_phase (k : ConditionTable) (s : State) : (s.setConditions k).phase = s.phase := rfl
@[simp] theorem State.setConditions_transit (k : ConditionTable) (s : State) : (s.setConditions k).transit = s.transit := rfl
@[simp] theorem State.setConditions_plan (k : ConditionTable) (s : State) : (s.setConditions k).plan = s.plan := rfl
@[simp] theorem State.setConditions_licence (k : ConditionTable) (s : State) : (s.setConditions k).licence = s.licence := rfl
@[simp] theorem State.setConditions_timebase (k : ConditionTable) (s : State) : (s.setConditions k).timebase = s.timebase := rfl
@[simp] theorem State.setConditions_params (k : ConditionTable) (s : State) : (s.setConditions k).params = s.params := rfl
@[simp] theorem State.setConditions_channels (k : ConditionTable) (s : State) : (s.setConditions k).channels = s.channels := rfl
@[simp] theorem State.setConditions_link (k : ConditionTable) (s : State) : (s.setConditions k).link = s.link := rfl
@[simp] theorem State.setConditions_level (k : ConditionTable) (s : State) : (s.setConditions k).level = s.level := rfl
@[simp] theorem State.setConditions_authority (k : ConditionTable) (s : State) : (s.setConditions k).authority = s.authority := rfl
@[simp] theorem State.setConditions_mode (k : ConditionTable) (s : State) : (s.setConditions k).mode = s.mode := rfl
@[simp] theorem State.setConditions_lines (k : ConditionTable) (s : State) : (s.setConditions k).lines = s.lines := rfl
@[simp] theorem State.setConditions_conditions (k : ConditionTable) (s : State) : (s.setConditions k).conditions = k := rfl
@[simp] theorem State.setConditions_ports (k : ConditionTable) (s : State) : (s.setConditions k).ports = s.ports := rfl

/-! ## State.setPending -/

@[simp] theorem State.setPending_pending (x : Option PendingActivation) (s : State) : (s.setPending x).pending = s.pending := rfl
@[simp] theorem State.setPending_phase (x : Option PendingActivation) (s : State) : (s.setPending x).phase = s.phase := rfl
@[simp] theorem State.setPending_transit (x : Option PendingActivation) (s : State) : (s.setPending x).transit = s.transit := rfl
@[simp] theorem State.setPending_plan (x : Option PendingActivation) (s : State) : (s.setPending x).plan = { s.plan with pendingActivation := x } := rfl
@[simp] theorem State.setPending_licence (x : Option PendingActivation) (s : State) : (s.setPending x).licence = s.licence := rfl
@[simp] theorem State.setPending_timebase (x : Option PendingActivation) (s : State) : (s.setPending x).timebase = s.timebase := rfl
@[simp] theorem State.setPending_params (x : Option PendingActivation) (s : State) : (s.setPending x).params = s.params := rfl
@[simp] theorem State.setPending_channels (x : Option PendingActivation) (s : State) : (s.setPending x).channels = s.channels := rfl
@[simp] theorem State.setPending_link (x : Option PendingActivation) (s : State) : (s.setPending x).link = s.link := rfl
@[simp] theorem State.setPending_level (x : Option PendingActivation) (s : State) : (s.setPending x).level = s.level := rfl
@[simp] theorem State.setPending_authority (x : Option PendingActivation) (s : State) : (s.setPending x).authority = s.authority := rfl
@[simp] theorem State.setPending_mode (x : Option PendingActivation) (s : State) : (s.setPending x).mode = s.mode := rfl
@[simp] theorem State.setPending_lines (x : Option PendingActivation) (s : State) : (s.setPending x).lines = s.lines := rfl
@[simp] theorem State.setPending_conditions (x : Option PendingActivation) (s : State) : (s.setPending x).conditions = s.conditions := rfl
@[simp] theorem State.setPending_ports (x : Option PendingActivation) (s : State) : (s.setPending x).ports = s.ports := rfl

/-! ## State.report -/

@[simp] theorem State.report_pending (k : SiteKind) (s : State) : (s.report k).pending = s.pending := rfl
@[simp] theorem State.report_phase (k : SiteKind) (s : State) : (s.report k).phase = s.phase := rfl
@[simp] theorem State.report_transit (k : SiteKind) (s : State) : (s.report k).transit = s.transit ++ [.occurrence k.slot] := rfl
@[simp] theorem State.report_plan (k : SiteKind) (s : State) : (s.report k).plan = s.plan := rfl
@[simp] theorem State.report_licence (k : SiteKind) (s : State) : (s.report k).licence = s.licence := rfl
@[simp] theorem State.report_timebase (k : SiteKind) (s : State) : (s.report k).timebase = s.timebase := rfl
@[simp] theorem State.report_params (k : SiteKind) (s : State) : (s.report k).params = s.params := rfl
@[simp] theorem State.report_channels (k : SiteKind) (s : State) : (s.report k).channels = s.channels := rfl
@[simp] theorem State.report_link (k : SiteKind) (s : State) : (s.report k).link = s.link := rfl
@[simp] theorem State.report_level (k : SiteKind) (s : State) : (s.report k).level = s.level := rfl
@[simp] theorem State.report_authority (k : SiteKind) (s : State) : (s.report k).authority = s.authority := rfl
@[simp] theorem State.report_mode (k : SiteKind) (s : State) : (s.report k).mode = s.mode := rfl
@[simp] theorem State.report_lines (k : SiteKind) (s : State) : (s.report k).lines = s.lines := rfl
@[simp] theorem State.report_conditions (k : SiteKind) (s : State) : (s.report k).conditions = s.conditions := rfl
@[simp] theorem State.report_ports (k : SiteKind) (s : State) : (s.report k).ports = s.ports := rfl

/-! ## State.writePlan -/

@[simp] theorem State.writePlan_pending (k : PlanController) (s : State) : (s.writePlan k).pending = s.pending :=
  rfl
@[simp] theorem State.writePlan_phase (k : PlanController) (s : State) : (s.writePlan k).phase = s.phase :=
  rfl
@[simp] theorem State.writePlan_transit (k : PlanController) (s : State) : (s.writePlan k).transit = s.transit ++ entryChanges s.plan.active k.active :=
  rfl
@[simp] theorem State.writePlan_plan (k : PlanController) (s : State) : (s.writePlan k).plan = k :=
  rfl
@[simp] theorem State.writePlan_licence (k : PlanController) (s : State) : (s.writePlan k).licence = s.licence :=
  rfl
@[simp] theorem State.writePlan_timebase (k : PlanController) (s : State) : (s.writePlan k).timebase = s.timebase :=
  rfl
@[simp] theorem State.writePlan_params (k : PlanController) (s : State) : (s.writePlan k).params = s.params :=
  rfl
@[simp] theorem State.writePlan_channels (k : PlanController) (s : State) : (s.writePlan k).channels = s.channels :=
  rfl
@[simp] theorem State.writePlan_link (k : PlanController) (s : State) : (s.writePlan k).link = s.link :=
  rfl
@[simp] theorem State.writePlan_level (k : PlanController) (s : State) : (s.writePlan k).level = s.level :=
  rfl
@[simp] theorem State.writePlan_authority (k : PlanController) (s : State) : (s.writePlan k).authority = s.authority :=
  rfl
@[simp] theorem State.writePlan_mode (k : PlanController) (s : State) : (s.writePlan k).mode = s.mode :=
  rfl
@[simp] theorem State.writePlan_lines (k : PlanController) (s : State) : (s.writePlan k).lines = s.lines :=
  rfl
@[simp] theorem State.writePlan_conditions (k : PlanController) (s : State) : (s.writePlan k).conditions = s.conditions :=
  rfl
@[simp] theorem State.writePlan_ports (k : PlanController) (s : State) : (s.writePlan k).ports = s.ports :=
  rfl

/-! ## State.changeLine -/

@[simp] theorem State.changeLine_pending (n : Line) (l : FaultLine) (s : State) :
    (s.changeLine n l).pending = s.pending := rfl
@[simp] theorem State.changeLine_phase (n : Line) (l : FaultLine) (s : State) :
    (s.changeLine n l).phase = s.phase := rfl
@[simp] theorem State.changeLine_transit (n : Line) (l : FaultLine) (s : State) :
    (s.changeLine n l).transit = s.transit ++ lineMessages n (s.lines.get n) l := rfl
@[simp] theorem State.changeLine_plan (n : Line) (l : FaultLine) (s : State) :
    (s.changeLine n l).plan = s.plan := rfl
@[simp] theorem State.changeLine_licence (n : Line) (l : FaultLine) (s : State) :
    (s.changeLine n l).licence = s.licence := rfl
@[simp] theorem State.changeLine_timebase (n : Line) (l : FaultLine) (s : State) :
    (s.changeLine n l).timebase = s.timebase := rfl
@[simp] theorem State.changeLine_params (n : Line) (l : FaultLine) (s : State) :
    (s.changeLine n l).params = s.params := rfl
@[simp] theorem State.changeLine_channels (n : Line) (l : FaultLine) (s : State) :
    (s.changeLine n l).channels = s.channels := rfl
@[simp] theorem State.changeLine_link (n : Line) (l : FaultLine) (s : State) :
    (s.changeLine n l).link = s.link := rfl
@[simp] theorem State.changeLine_level (n : Line) (l : FaultLine) (s : State) :
    (s.changeLine n l).level = s.level := rfl
@[simp] theorem State.changeLine_authority (n : Line) (l : FaultLine) (s : State) :
    (s.changeLine n l).authority = s.authority := rfl
@[simp] theorem State.changeLine_mode (n : Line) (l : FaultLine) (s : State) :
    (s.changeLine n l).mode = s.mode := rfl
@[simp] theorem State.changeLine_lines (n : Line) (l : FaultLine) (s : State) :
    (s.changeLine n l).lines = put s.lines n l := rfl
@[simp] theorem State.changeLine_conditions (n : Line) (l : FaultLine) (s : State) :
    (s.changeLine n l).conditions = s.conditions := rfl
@[simp] theorem State.changeLine_ports (n : Line) (l : FaultLine) (s : State) :
    (s.changeLine n l).ports = s.ports := rfl

/-! ## State.commit -/

@[simp] theorem State.commit_pending (c : Chan) (o : SeqOutcome) (s : State) :
    (s.commit c o).pending = s.pending := rfl
@[simp] theorem State.commit_phase (c : Chan) (o : SeqOutcome) (s : State) :
    (s.commit c o).phase = s.phase := rfl
@[simp] theorem State.commit_transit (c : Chan) (o : SeqOutcome) (s : State) :
    (s.commit c o).transit = s.transit ++ o.messages c (s.channels.get c) := rfl
@[simp] theorem State.commit_plan (c : Chan) (o : SeqOutcome) (s : State) :
    (s.commit c o).plan = s.plan := rfl
@[simp] theorem State.commit_licence (c : Chan) (o : SeqOutcome) (s : State) :
    (s.commit c o).licence = s.licence := rfl
@[simp] theorem State.commit_timebase (c : Chan) (o : SeqOutcome) (s : State) :
    (s.commit c o).timebase = s.timebase := rfl
@[simp] theorem State.commit_params (c : Chan) (o : SeqOutcome) (s : State) :
    (s.commit c o).params = s.params := rfl
@[simp] theorem State.commit_channels (c : Chan) (o : SeqOutcome) (s : State) :
    (s.commit c o).channels = put s.channels c (o.final (s.channels.get c)) := rfl
@[simp] theorem State.commit_link (c : Chan) (o : SeqOutcome) (s : State) :
    (s.commit c o).link = s.link := rfl
@[simp] theorem State.commit_level (c : Chan) (o : SeqOutcome) (s : State) :
    (s.commit c o).level = s.level := rfl
@[simp] theorem State.commit_authority (c : Chan) (o : SeqOutcome) (s : State) :
    (s.commit c o).authority = s.authority := rfl
@[simp] theorem State.commit_mode (c : Chan) (o : SeqOutcome) (s : State) :
    (s.commit c o).mode = s.mode := rfl
@[simp] theorem State.commit_lines (c : Chan) (o : SeqOutcome) (s : State) :
    (s.commit c o).lines = s.lines := rfl
@[simp] theorem State.commit_conditions (c : Chan) (o : SeqOutcome) (s : State) :
    (s.commit c o).conditions = s.conditions := rfl
@[simp] theorem State.commit_ports (c : Chan) (o : SeqOutcome) (s : State) :
    (s.commit c o).ports = s.ports := rfl

/-! ## State.answer -/

/-- Only the ports change when a response is handed back. -/
theorem State.answer_eq (p : Port) (tag : Option Byte) (r : Reply) (s : State) :
    s.answer p tag r = { s with ports := (s.answer p tag r).ports } := by cases tag <;> rfl

@[simp] theorem State.answer_pending (p : Port) (tag : Option Byte) (r : Reply) (s : State) :
    (s.answer p tag r).pending = s.pending := by cases tag <;> rfl
@[simp] theorem State.answer_phase (p : Port) (tag : Option Byte) (r : Reply) (s : State) :
    (s.answer p tag r).phase = s.phase := by cases tag <;> rfl
@[simp] theorem State.answer_transit (p : Port) (tag : Option Byte) (r : Reply) (s : State) :
    (s.answer p tag r).transit = s.transit := by cases tag <;> rfl
@[simp] theorem State.answer_plan (p : Port) (tag : Option Byte) (r : Reply) (s : State) :
    (s.answer p tag r).plan = s.plan := by cases tag <;> rfl
@[simp] theorem State.answer_licence (p : Port) (tag : Option Byte) (r : Reply) (s : State) :
    (s.answer p tag r).licence = s.licence := by cases tag <;> rfl
@[simp] theorem State.answer_timebase (p : Port) (tag : Option Byte) (r : Reply) (s : State) :
    (s.answer p tag r).timebase = s.timebase := by cases tag <;> rfl
@[simp] theorem State.answer_params (p : Port) (tag : Option Byte) (r : Reply) (s : State) :
    (s.answer p tag r).params = s.params := by cases tag <;> rfl
@[simp] theorem State.answer_channels (p : Port) (tag : Option Byte) (r : Reply) (s : State) :
    (s.answer p tag r).channels = s.channels := by cases tag <;> rfl
@[simp] theorem State.answer_link (p : Port) (tag : Option Byte) (r : Reply) (s : State) :
    (s.answer p tag r).link = s.link := by cases tag <;> rfl
@[simp] theorem State.answer_level (p : Port) (tag : Option Byte) (r : Reply) (s : State) :
    (s.answer p tag r).level = s.level := by cases tag <;> rfl
@[simp] theorem State.answer_authority (p : Port) (tag : Option Byte) (r : Reply) (s : State) :
    (s.answer p tag r).authority = s.authority := by cases tag <;> rfl
@[simp] theorem State.answer_mode (p : Port) (tag : Option Byte) (r : Reply) (s : State) :
    (s.answer p tag r).mode = s.mode := by cases tag <;> rfl
@[simp] theorem State.answer_lines (p : Port) (tag : Option Byte) (r : Reply) (s : State) :
    (s.answer p tag r).lines = s.lines := by cases tag <;> rfl
@[simp] theorem State.answer_conditions (p : Port) (tag : Option Byte) (r : Reply) (s : State) :
    (s.answer p tag r).conditions = s.conditions := by cases tag <;> rfl

@[simp] theorem State.answer_none (p : Port) (r : Reply) (s : State) : s.answer p none r = s := rfl

theorem State.answer_some (p : Port) (t : Byte) (r : Reply) (s : State) :
    s.answer p (some t) r = s.setPorts (s.ports.respond p (responseFrame s.ports.unitAddress t r)) := rfl

end Sys2Proof.Machine
end

