-- ==== Sys2Proof/Laws/Ops.lean ====
section
/-!
SUPPORT. What the shared operations can do, said once: tables, messages in transit, requests served, ticks and
initialize notices taken, requests that only the holder may make.
-/

namespace Sys2Proof.Machine

/-! ## Tables -/

theorem get_eq {α : Type} {n : Nat} (v : Vector α n) (i : Fin n) : v.get i = v[i.val] := rfl

@[simp] theorem put_get {α : Type} {n : Nat} (v : Vector α n) (i j : Fin n) (x : α) :
    (put v i x).get j = if i = j then x else v.get j := by
  simp only [put, get_eq, Vector.getElem_set, Fin.ext_iff]

theorem put_get_same {α : Type} {n : Nat} (v : Vector α n) (i : Fin n) (x : α) : (put v i x).get i = x := by simp

theorem put_get_other {α : Type} {n : Nat} (v : Vector α n) {i j : Fin n} (x : α) (h : i ≠ j) :
    (put v i x).get j = v.get j := by simp [h]

@[simp] theorem ofFn_get {α : Type} {n : Nat} (f : Fin n → α) (i : Fin n) : (Vector.ofFn f).get i = f i := by
  simp [get_eq]

@[simp] theorem replicate_get {α : Type} {n : Nat} (x : α) (i : Fin n) : (Vector.replicate n x).get i = x := by
  simp [get_eq]

theorem ext_get {α : Type} {n : Nat} {v w : Vector α n} (h : ∀ i, v.get i = w.get i) : v = w := by
  apply Vector.ext
  intro i hi
  exact h ⟨i, hi⟩

/-! ## Messages in transit -/

/-- What pull answers: the message meets the test, and it stood among the others. -/
theorem pull_some {key : Message → Bool} {l ms : List Message} {m : Message} (h : pull key l = some (m, ms)) :
    key m = true ∧ ∃ l₁ l₂, l = l₁ ++ m :: l₂ ∧ ms = l₁ ++ l₂ ∧ ∀ x ∈ l₁, key x = false := by
  induction l generalizing m ms with
  | nil => simp [pull] at h
  | cons x xs ih =>
    by_cases hx : key x
    · simp only [pull, hx, if_true, Option.some.injEq, Prod.mk.injEq] at h
      obtain ⟨rfl, rfl⟩ := h
      exact ⟨hx, [], xs, rfl, rfl, by simp⟩
    · simp only [pull, hx, Bool.false_eq_true, if_false, Option.map_eq_some_iff, Prod.exists, Prod.mk.injEq] at h
      obtain ⟨a, b, hab, rfl, rfl⟩ := h
      obtain ⟨hk, l₁, l₂, rfl, rfl, hall⟩ := ih hab
      exact ⟨hk, x :: l₁, l₂, rfl, rfl, by simpa [hx] using hall⟩

/-- A message that meets the test and has none before it that does is the one pulled. -/
theorem pull_of_first {key : Message → Bool} {m : Message} (hm : key m = true) (l₂ : List Message) :
    ∀ l₁ : List Message, (∀ x ∈ l₁, key x = false) → pull key (l₁ ++ m :: l₂) = some (m, l₁ ++ l₂)
  | [], _ => by simp [pull, hm]
  | x :: xs, h => by
    simp only [List.mem_cons, forall_eq_or_imp] at h
    simp [pull, h.1, pull_of_first hm l₂ xs h.2]

theorem pull_none {key : Message → Bool} {l : List Message} (h : pull key l = none) : ∀ x ∈ l, key x = false := by
  induction l with
  | nil => simp
  | cons x xs ih =>
    by_cases hx : key x
    · simp [pull, hx] at h
    · simp only [pull, hx, Bool.false_eq_true, if_false, Option.map_eq_none_iff] at h
      simpa [hx] using ih h

theorem mem_of_pull {key : Message → Bool} {l ms : List Message} {m x : Message} (h : pull key l = some (m, ms))
    (hx : x ∈ ms) : x ∈ l := by
  obtain ⟨-, l₁, l₂, rfl, rfl, -⟩ := pull_some h
  simp only [List.mem_append, List.mem_cons] at hx ⊢
  tauto

/-- A message other than the one pulled stays. -/
theorem mem_pull {key : Message → Bool} {l ms : List Message} {m x : Message} (h : pull key l = some (m, ms))
    (hx : x ∈ l) (hne : x ≠ m) : x ∈ ms := by
  obtain ⟨-, l₁, l₂, rfl, rfl, -⟩ := pull_some h
  simp only [List.mem_append, List.mem_cons] at hx ⊢
  tauto

/-- Taking one message leaves the others as often as they were there. -/
theorem count_pull {key : Message → Bool} {l ms : List Message} {m x : Message} (h : pull key l = some (m, ms))
    (hx : x ≠ m) : l.count x = ms.count x := by
  obtain ⟨-, l₁, l₂, rfl, rfl, -⟩ := pull_some h
  simp [List.count_append, hx.symm]

/-- Taking a message changes what is in transit alone. -/
theorem take_some {key : Message → Bool} {s s' : State} {m : Message} (h : s.take key = some (m, s')) :
    ∃ ms, pull key s.transit = some (m, ms) ∧ s' = { s with transit := ms } := by
  simp only [State.take, Option.map_eq_some_iff, Prod.exists, Prod.mk.injEq] at h
  obtain ⟨a, b, hab, rfl, rfl⟩ := h
  exact ⟨b, hab, rfl⟩

theorem take_key {key : Message → Bool} {s s' : State} {m : Message} (h : s.take key = some (m, s')) :
    key m = true := by
  obtain ⟨ms, hp, -⟩ := take_some h
  exact (pull_some hp).1

/-- Taking by a test is taking the first message of the kind the test decides. -/
theorem take_iff {key : Message → Bool} {kind : Message → Prop} (hk : ∀ x, key x = true ↔ kind x) {m : Message}
    {s s' : State} : s.take key = some (m, s') ↔ s.TakesFirst kind m s' := by
  have hn : ∀ x, key x = false ↔ ¬ kind x := fun x => by rw [← hk, Bool.not_eq_true]
  constructor
  · intro h
    obtain ⟨ms, hp, rfl⟩ := take_some h
    obtain ⟨hm, l₁, l₂, hl, rfl, hfirst⟩ := pull_some hp
    exact ⟨l₁, l₂, hl, rfl, (hk m).1 hm, fun x hx => (hn x).1 (hfirst x hx)⟩
  · rintro ⟨l₁, l₂, hl, rfl, hm, hfirst⟩
    simp only [State.take, hl, pull_of_first ((hk m).2 hm) l₂ l₁ fun x hx => (hn x).2 (hfirst x hx), Option.map_some]

/-! ## Requests served -/

/-- An asked request served: the owner's reply goes back through the port. -/
theorem serve_asked {o : Owner} {p : Port} {tag : Option Byte} {body : Request} {s s' s'' : State} {r : Reply}
    {f : Request → State → Option (Reply × State)} (h : Asked o p tag body s s') (hf : f body s' = some (r, s'')) :
    serve o p f s = s''.answer p tag r := by
  unfold Asked at h
  simp only [serve, h, hf]

/-- A request that its owner does not take yet stays where it is. -/
theorem serve_waits {o : Owner} {p : Port} {tag : Option Byte} {body : Request} {s s' : State}
    {f : Request → State → Option (Reply × State)} (h : Asked o p tag body s s') (hf : f body s' = none) :
    serve o p f s = s := by
  unfold Asked at h
  simp only [serve, h, hf]

/-- Everything serve can do: nothing, or the owner's act on a request taken and its reply. -/
theorem serve_cases (o : Owner) (p : Port) (f : Request → State → Option (Reply × State)) (s : State) :
    serve o p f s = s ∨ ∃ tag body ms r s'', Asked o p tag body s { s with transit := ms }
      ∧ pull (Message.isRequest o p) s.transit = some (.request o p tag body, ms)
      ∧ f body { s with transit := ms } = some (r, s'') ∧ serve o p f s = s''.answer p tag r := by
  unfold serve
  cases h : s.take (Message.isRequest o p) with
  | none => exact Or.inl rfl
  | some x =>
    obtain ⟨m, s'⟩ := x
    obtain ⟨ms, hp, rfl⟩ := take_some h
    have hk := take_key h
    obtain ⟨tag, body, rfl⟩ : ∃ tag body, m = .request o p tag body := by
      cases m <;> simp_all [Message.isRequest]
    dsimp only
    cases hf : f body { s with transit := ms } with
    | none => exact Or.inl rfl
    | some y => exact Or.inr ⟨tag, body, ms, y.1, y.2, h, hp, hf, rfl⟩

theorem serveOnly_asked {o : Owner} {p : Port} {tag : Option Byte} {body : Request} {s s' : State}
    {f : State → Reply × State} (h : Asked o p tag body s s') :
    serveOnly o p body f s = (f s').2.answer p tag (f s').1 := by
  unfold serveOnly
  exact serve_asked h (by simp)

theorem readItem_asked {i : Item} {p : Port} {tag : Option Byte} {params : List Byte} {s s' : State}
    {f : List Byte → State → Reply} (h : Asked i.owner p tag (.readConfig i params) s s') :
    readItem i p f s = s'.answer p tag (f params s') := by
  unfold readItem
  exact serve_asked h (by simp)

theorem configureItem_asked {i : Item} {p : Port} {tag : Option Byte} {value : List Byte} {s s' : State}
    {f : List Byte → State → Reply × State} (h : Asked i.owner p tag (.configure i value) s s') :
    configureItem i p f s = (f value s').2.answer p tag (f value s').1 := by
  unfold configureItem
  exact serve_asked h (by simp)

/-- Everything a READ CONFIG can do: nothing, or a request taken and answered. -/
theorem readItem_cases (i : Item) (p : Port) (f : List Byte → State → Reply) (s : State) :
    readItem i p f s = s ∨ ∃ tag params ms, Asked i.owner p tag (.readConfig i params) s { s with transit := ms }
      ∧ pull (Message.isRequest i.owner p) s.transit = some (.request i.owner p tag (.readConfig i params), ms)
      ∧ readItem i p f s = State.answer p tag (f params { s with transit := ms }) { s with transit := ms } := by
  rcases serve_cases i.owner p
    (fun body s =>
      match body with
      | .readConfig i' params => if i' = i then some (f params s, s) else none
      | _ => none) s with h | ⟨tag, body, ms, r, s'', ha, hp, hf, hs⟩
  · exact Or.inl h
  · split at hf
    · split_ifs at hf with hi
      subst hi
      simp only [Option.some.injEq, Prod.mk.injEq] at hf
      obtain ⟨rfl, rfl⟩ := hf
      exact Or.inr ⟨tag, _, ms, ha, hp, hs⟩
    · simp at hf

theorem holderOnly_of_holds {p : Port} {f : State → Reply × State} {s : State} (h : Holds s p) :
    holderOnly p f s = f s := by
  unfold Holds at h
  simp [holderOnly, State.isHolder, h]

theorem holderOnly_of_not {p : Port} {f : State → Reply × State} {s : State} (h : ¬ Holds s p) :
    holderOnly p f s = (.notHolder, s) := by
  unfold Holds at h
  simp [holderOnly, State.isHolder, h]

theorem asked_transit {o : Owner} {p : Port} {tag : Option Byte} {body : Request} {s s' : State}
    (h : Asked o p tag body s s') : ∃ ms, s' = { s with transit := ms } := by
  obtain ⟨ms, -, rfl⟩ := take_some h
  exact ⟨ms, rfl⟩

/-! ## Ticks, initialize notices, events of a running part -/

theorem takeTick_some {k : TickConsumer} {s s' : State} {n : Word16} {f : Word16 → State → State}
    (h : s.take (Message.isTick k) = some (.tick k n, s')) : takeTick k f s = f n s' := by
  simp [takeTick, h]

theorem takeTick_cases (k : TickConsumer) (f : Word16 → State → State) (s : State) :
    takeTick k f s = s ∨ ∃ n ms, pull (Message.isTick k) s.transit = some (.tick k n, ms)
      ∧ takeTick k f s = f n { s with transit := ms } := by
  unfold takeTick
  cases h : s.take (Message.isTick k) with
  | none => exact Or.inl rfl
  | some x =>
    obtain ⟨m, s'⟩ := x
    obtain ⟨ms, hp, rfl⟩ := take_some h
    have hk := take_key h
    obtain ⟨n, rfl⟩ : ∃ n, m = .tick k n := by cases m <;> simp_all [Message.isTick]
    exact Or.inr ⟨_, ms, hp, rfl⟩

theorem noticeFirst_iff {s : State} : s.noticeFirst = true ↔
    s.mode.mode = .operate ∧ ∃ x, s.plan.pendingActivation = some x ∧ x.oldNotices < s.standbyNotices := by
  unfold State.noticeFirst
  cases s.plan.pendingActivation <;> simp

theorem takePlanTick_waits {s : State} (h : s.noticeFirst = true) : s.takePlanTick = s := by simp [State.takePlanTick, h]

theorem takePlanTick_due {s : State} (h : s.noticeFirst = false) :
    s.takePlanTick = takeTick .plan State.planTick s := by
  simp [State.takePlanTick, h]

theorem takeInitNotice_some {b : InitBlock} {m : Message} {s s' : State} {f : State → State}
    (h : s.take (Message.isInitNotice b) = some (m, s')) : takeInitNotice b f s = State.send [.initReport b] (f s') := by
  simp [takeInitNotice, h]

theorem takeInitNotice_cases (b : InitBlock) (f : State → State) (s : State) :
    takeInitNotice b f s = s ∨ ∃ ms, pull (Message.isInitNotice b) s.transit = some (.initNotice b, ms)
      ∧ takeInitNotice b f s = State.send [.initReport b] (f { s with transit := ms }) := by
  unfold takeInitNotice
  cases h : s.take (Message.isInitNotice b) with
  | none => exact Or.inl rfl
  | some x =>
    obtain ⟨m, s'⟩ := x
    obtain ⟨ms, hp, rfl⟩ := take_some h
    have hk := take_key h
    obtain rfl : m = .initNotice b := by cases m <;> simp_all [Message.isInitNotice]
    exact Or.inr ⟨ms, hp, rfl⟩

theorem whenRunning_of {f : State → State} {s : State} (h : s.phase = .running) : whenRunning f s = f s := by
  simp [whenRunning, h]

theorem whenRunning_not {f : State → State} {s : State} (h : s.phase ≠ .running) : whenRunning f s = s := by
  simp [whenRunning, h]

/-! ## Gates (R73, R129) -/

theorem carrierAsked_false {s : State} :
    s.carrierAsked = false ↔ ∀ c, (s.channels.get c).state ≠ .onAir ∧ (s.channels.get c).state ≠ .foldback := by
  simp only [State.carrierAsked, List.any_eq_false, List.mem_finRange, true_implies]
  refine forall_congr' fun c => ?_
  cases (s.channels.get c).state <;> simp [ChannelState.carrier]

/-- A response changes no gate. -/
theorem answer_gate (p : Port) (tag : Option Byte) (r : Reply) (s : State) (c : Chan) :
    (s.answer p tag r).gate c = s.gate c := by
  cases tag <;> rfl

/-! ## The lowest-numbered channel or line -/

theorem lowestChan_none {test : Chan → Bool} : lowestChan test = none ↔ ∀ c, test c = false := by
  simp [lowestChan, List.find?_eq_none]

theorem lowestChan_some {test : Chan → Bool} {c : Chan} (h : lowestChan test = some c) :
    test c = true ∧ ∀ d < c, test d = false := by
  unfold lowestChan at h
  refine ⟨List.find?_some h, fun d hd => ?_⟩
  rw [List.find?_eq_some_iff_append] at h
  obtain ⟨-, as, bs, hl, hall⟩ := h
  have hsorted : (List.finRange 8).Pairwise (· < ·) := by decide
  have hmem : d ∈ as ++ c :: bs := hl ▸ List.mem_finRange d
  rw [hl] at hsorted
  have hp := List.pairwise_append.1 hsorted
  rcases List.mem_append.1 hmem with h1 | h1
  · simpa using hall d h1
  · rcases List.mem_cons.1 h1 with rfl | h2
    · exact absurd hd (lt_irrefl _)
    · have := (List.pairwise_cons.1 hp.2.1).1 d h2
      exact absurd (lt_trans hd this) (lt_irrefl _)

/-! ## What frames spell -/

/-- The length byte of a frame under way. -/
theorem fieldAt_length (got : List Byte) (b : Byte) (h : 4 ≤ got.length) :
    fieldAt (got ++ [b]) 3 1 = (got.getD 3 0).toNat := by
  match got, h with
  | _ :: _ :: _ :: _ :: _, _ => simp [fieldAt, beNat]

/-- A byte before the check byte, the length byte at most 60, is collected. -/
theorem collect_more {got : List Byte} {b : Byte} (h : got.length < 3 ∨ got.length = 3 ∧ b.toNat ≤ 60
    ∨ 4 ≤ got.length ∧ got.length < 4 + (got.getD 3 0).toNat) : collect got b = .more (got ++ [b]) := by
  have h1 : ¬ (got.length = 3 ∧ Config.maxPayload < b.toNat) := by simp only [Config.maxPayload]; omega
  have h2 : (got ++ [b]).length ≠ 5 + fieldAt (got ++ [b]) 3 1 := by
    rw [List.length_append, List.length_singleton]
    rcases h with h | h | h
    · omega
    · omega
    · rw [fieldAt_length _ _ h.1]; omega
  simp only [collect, if_neg h1, wholeFrame, decide_eq_false h2, Bool.and_false, Bool.false_eq_true, if_false]

/-- The byte at position 4 + L completes the frame. -/
theorem collect_complete {got : List Byte} {b : Byte} (h : 4 ≤ got.length) (hl : got.length = 4 + (got.getD 3 0).toNat)
    (hm : (got.getD 3 0).toNat ≤ 60) : collect got b = .complete (got ++ [b]) := by
  have h1 : ¬ (got.length = 3 ∧ Config.maxPayload < b.toNat) := by omega
  have h2 : wholeFrame (got ++ [b]) = true := by
    simp only [wholeFrame, fieldAt_length _ _ h, Config.maxPayload, List.length_append, List.length_singleton,
      Bool.and_eq_true, decide_eq_true_eq]
    omega
  simp only [collect, if_neg h1, h2, if_true]

/-- A length byte above 60 gives the frame up. -/
theorem collect_tooLong {got : List Byte} {b : Byte} (h : got.length = 3) (hb : 60 < b.toNat) :
    collect got b = .tooLong := by
  simp only [collect, Config.maxPayload, h, hb, and_self, if_true]

/-- The level a two-byte field spells is a level. -/
theorem levelOfNat_isLevel (n : Nat) : IsLevel (levelOfNat n) :=
  ⟨BitVec.le_toInt (BitVec.ofNat 16 n), Int.lt_add_one_iff.1 (BitVec.toInt_lt (x := BitVec.ofNat 16 n))⟩

/-- The level fields of an entry a frame spells hold levels. -/
theorem parseEntry_levelsFit (bytes : List Byte) : (parseEntry bytes).LevelsFit where
  openLevel := levelOfNat_isLevel _
  closeLevel := levelOfNat_isLevel _
  reflLevel l h := by
    simp only [parseEntry] at h
    split at h
    · cases h; exact levelOfNat_isLevel _
    · cases h

/-- A frame that spells a request to stage an entry spells levels in its level fields. -/
theorem parseRequest_levelsFit {code : Byte} {payload : List Byte} {o : Owner} {n : Nat} {r : RawEntry}
    (h : parseRequest code payload = .request o (.stageEntry n r)) : r.LevelsFit := by
  unfold parseRequest parseConfigure parseReadConfig sized at h
  repeat' split at h
  all_goals first | (cases h; exact parseEntry_levelsFit _) | cases h

end Sys2Proof.Machine
end

