-- ==== Sys2Proof/Laws/Frames.lean ====
section
/-!
SUPPORT. What each command can change, said once: every command belongs to one block, and beside that block's own state
it changes only the messages in transit and the responses in the ports.
-/

namespace Sys2Proof.Machine

/-! ## The block of a command -/

/-- The part of the state a command writes, beside transit and ports. -/
inductive Block where
  | reset | ports | reads | plan | licence | timebase | params | channels | link | level | authority | mode | lines
  | conditions
  deriving DecidableEq, Repr

/-- The block of a command. Commands that write no block are reads; those that end a frame are ports. -/
def blockOf : Instr → Block
  | .hardwareReset | .endOfHardwareReset _ | .lossOfSupply => .reset
  | .requestFrameComplete _ _ | .identify _ _ | .readStatus _ _ | .portReadTransfer _ | .selectPeriodEnd _
  | .portSIdleDetect | .portSFramingError | .responseTransmissionStart | .responseTransmissionEnd
  | .lengthByteAbove60 _ _ => .ports
  | .readEntry _ | .readChannel _ _ | .readLicence _ | .configureEpochPeriod _ | .configureLatestResult _
  | .configureAttention _ | .readConfigApplyMode _ | .readConfigRaster _ | .readConfigKeepaliveLimit _
  | .readConfigTuneLimit _ | .readConfigSettleEpochs _ | .readConfigFoldbackStep _ | .readConfigRecoverWindows _
  | .readConfigReflLimit _ | .readConfigCarrierFloor _ | .readConfigWindowLength _ | .readConfigSampleFormat _
  | .readConfigReportSelect _ | .readConfigReportThreshold _ | .readConfigLine _ | .readConfigEpochPeriod _
  | .readConfigLatestResult _ | .readConfigAttention _ => .reads
  | .stageEntry _ | .stageClear _ | .stageCopy _ | .armActivation _ | .disarm _ | .activateNow _
  | .planControllerInitialize | .configureApplyMode _ | .configureRaster _ | .planControllerTick
  | .activationAbandoned | .standbyNotice => .plan
  | .licenceEntry _ | .licenceCommit _ | .licenceErase _ | .programmingCompletion _ | .eraseCompletion
  | .startUpLoadEnd _ => .licence
  | .setEpoch _ | .epochEnd => .timebase
  | .configureTuneLimit _ | .configureSettleEpochs _ | .configureFoldbackStep _ | .configureRecoverWindows _
  | .configureReflLimit _ | .configureCarrierFloor _ | .sequencerParametersInitialize => .params
  | .restartChannel _ _ | .sequencerTick _ | .lockTimeout _ | .blankingEnd _ | .settlingExpiry _ | .entryChange _
  | .siteStart _ | .siteStop _ | .lockLineChange _ _ _ | .tuneWriteCompletion _ | .rxResult _ | .reflResult _
  | .fwdResult _ | .faultShutdown _ => .channels
  | .writeDemand _ | .linkWriteComplete => .link
  | .sampleArrival _ | .offNotice _ | .readReports _ | .flushReports _ | .configureWindowLength _
  | .configureSampleFormat _ | .configureReportSelect _ | .configureReportThreshold _ | .levelMonitorInitialize => .level
  | .claim _ | .reserve _ | .release _ | .keepalive _ | .authorityTick | .keepaliveLapse
  | .configureKeepaliveLimit _ => .authority
  | .setModeOperate _ | .setModeStandby _ | .siteStandby _ | .initializeSite _ | .initializeNoticeReport _
  | .faultStandby _ => .mode
  | .configureLine _ | .faultPinChange _ _ | .filterIntervalEnd _ | .faultLineInitialize => .lines
  | .occurrence _ | .deassertionNotice _ | .readConditions _ | .clearConditions _ | .setAttention _ | .acknowledge _
  | .conditionTableInitialize => .conditions

/-! ## A projection that ignores transit and ports, through the shared operations -/

/-- A projection of the state that neither messages nor responses change. -/
structure Quiet {α : Type} (F : State → α) : Prop where
  transit : ∀ s ms, F { s with transit := ms } = F s
  ports : ∀ s i, F { s with ports := i } = F s

theorem send_quiet {α : Type} {F : State → α} (hF : Quiet F) (ms : List Message) (s : State) : F (s.send ms) = F s :=
  hF.transit _ _

theorem answer_quiet {α : Type} {F : State → α} (hF : Quiet F) (p : Port) (tag : Option Byte) (r : Reply) (s : State) :
    F (s.answer p tag r) = F s := by
  unfold State.answer
  split
  · rfl
  · exact hF.ports _ _

theorem take_quiet {α : Type} {F : State → α} (hF : Quiet F) {key : Message → Bool} {m : Message} {s s' : State}
    (h : s.take key = some (m, s')) : F s' = F s := by
  obtain ⟨ms, -, rfl⟩ := take_some h
  exact hF.transit _ _

theorem serve_quiet {α : Type} {F : State → α} (hF : Quiet F) {o : Owner} {p : Port}
    {f : Request → State → Option (Reply × State)} (s : State)
    (hf : ∀ body s r s'', f body s = some (r, s'') → F s'' = F s) : F (serve o p f s) = F s := by
  rcases serve_cases o p f s with h | ⟨tag, body, ms, r, s'', -, -, h, h'⟩
  · rw [h]
  · rw [h', answer_quiet hF, hf _ _ _ _ h, hF.transit]

theorem takeTick_quiet {α : Type} {F : State → α} (hF : Quiet F) {k : TickConsumer} {f : Word16 → State → State}
    (s : State) (hf : ∀ n s, F (f n s) = F s) : F (takeTick k f s) = F s := by
  rcases takeTick_cases k f s with h | ⟨n, ms, -, h⟩
  · rw [h]
  · rw [h, hf, hF.transit]

theorem takeInitNotice_quiet {α : Type} {F : State → α} (hF : Quiet F) {b : InitBlock} {f : State → State} (s : State)
    (hf : ∀ s, F (f s) = F s) : F (takeInitNotice b f s) = F s := by
  rcases takeInitNotice_cases b f s with h | ⟨ms, -, h⟩
  · rw [h]
  · rw [h, send_quiet hF, hf, hF.transit]

theorem whenRunning_quiet {α : Type} {F : State → α} {f : State → State} (s : State) (hf : ∀ s, F (f s) = F s) :
    F (whenRunning f s) = F s := by
  unfold whenRunning
  split
  · exact hf s
  · rfl

theorem holderOnly_quiet {α : Type} {F : State → α} {p : Port} {f : State → Reply × State} (s : State)
    (hf : ∀ s, F (f s).2 = F s) : F (holderOnly p f s).2 = F s := by
  unfold holderOnly
  split
  · exact hf s
  · rfl

theorem serveOnly_quiet {α : Type} {F : State → α} (hF : Quiet F) {o : Owner} {p : Port} {req : Request}
    {f : State → Reply × State} (s : State) (hf : ∀ s, F (f s).2 = F s) : F (serveOnly o p req f s) = F s := by
  refine serve_quiet hF s fun body s r s'' h => ?_
  split_ifs at h
  have := hf s
  cases h' : f s
  simp_all

theorem configureItem_quiet {α : Type} {F : State → α} (hF : Quiet F) {i : Item} {p : Port}
    {f : List Byte → State → Reply × State} (s : State) (hf : ∀ v s, F (f v s).2 = F s) :
    F (configureItem i p f s) = F s := by
  refine serve_quiet hF s fun body s r s'' h => ?_
  split at h
  · split_ifs at h
    rename_i v _
    have := hf v s
    cases h' : f v s
    simp_all
  · simp at h

theorem readItem_quiet {α : Type} {F : State → α} (hF : Quiet F) {i : Item} {p : Port} {f : List Byte → State → Reply}
    (s : State) : F (readItem i p f s) = F s := by
  refine serve_quiet hF s fun body s r s'' h => ?_
  split at h
  · split_ifs at h
    cases h
    rfl
  · simp at h

/-- A READ CONFIG and a refused CONFIGURE write no block. -/
theorem reads_quiet {α : Type} {F : State → α} (hF : Quiet F) {c : Instr} {s t : State} (hc : blockOf c = .reads)
    (h : exec c s = .next t) : F t = F s := by
  cases c <;> first | (cases hc; done) | skip
  all_goals
    simp only [exec, execReadEntry, execReadChannel, execReadLicence, execConfigureEpochPeriod,
      execConfigureLatestResult, execConfigureAttention, execReadConfigApplyMode, execReadConfigRaster,
      execReadConfigKeepaliveLimit, execReadConfigTuneLimit, execReadConfigSettleEpochs, execReadConfigFoldbackStep,
      execReadConfigRecoverWindows, execReadConfigReflLimit, execReadConfigCarrierFloor, execReadConfigWindowLength,
      execReadConfigSampleFormat, execReadConfigReportSelect, execReadConfigReportThreshold, execReadConfigLine,
      execReadConfigEpochPeriod, execReadConfigLatestResult, execReadConfigAttention, Host.Outcome.next.injEq] at h
    subst h
    first
      | exact readItem_quiet hF s
      | exact configureItem_quiet hF s fun v s => holderOnly_quiet s fun s => rfl
      | skip
  all_goals
    refine serve_quiet hF s fun body s r s'' h => ?_
    repeat' split at h
    all_goals first | (cases h; done) | (cases h; rfl)

/-- A command of the Plan Controller writes the Plan Controller's state alone. -/
theorem plan_quiet {α : Type} {F : State → α} (hF : Quiet F) (hK : ∀ (s : State) k, F { s with plan := k } = F s)
    {c : Instr} {s t : State} (hc : blockOf c = .plan) (h : exec c s = .next t) : F t = F s := by
  have hw : ∀ k s, F (State.writePlan k s) = F s := fun k s => by rw [State.writePlan, send_quiet hF, hK]
  have hp : ∀ x s, F (State.setPending x s) = F s := fun x s => hK _ _
  have hr : ∀ k s, F (State.report k s) = F s := fun k s => send_quiet hF _ _
  have hact : ∀ n s, F (State.activate n s) = F s := fun n s => by rw [State.activate, hw, hr]
  have haba : ∀ s, F (State.abandon s) = F s := fun s => by rw [State.abandon, hr, hp]
  have htick : ∀ n s, F (State.planTick n s) = F s := fun n s => by
    unfold State.planTick State.deferralTest State.targetTest
    repeat' split
    all_goals simp only [hact, hp, haba]
  cases c <;> first | (cases hc; done) | skip
  case planControllerTick | activationAbandoned =>
    simp only [exec, execPlanControllerTick, execActivationAbandoned, State.takePlanTick, Host.Outcome.next.injEq] at h
    subst h
    repeat' split
    all_goals first
      | exact takeTick_quiet hF s htick
      | rfl
  case standbyNotice =>
    simp only [exec, execStandbyNotice, Host.Outcome.next.injEq] at h
    subst h
    split
    · rename_i heq
      rw [State.takeStandbyNotice]
      split
      · rw [haba, take_quiet hF heq]
      · rw [take_quiet hF heq]
    · rfl
  case planControllerInitialize =>
    simp only [exec, execPlanControllerInitialize, Host.Outcome.next.injEq] at h
    subst h
    refine takeInitNotice_quiet hF s fun s => ?_
    simp only [State.initializePlan, hw]
    split
    · exact hr _ _
    · rfl
  case configureApplyMode p =>
    simp only [exec, execConfigureApplyMode, Host.Outcome.next.injEq] at h
    subst h
    refine configureItem_quiet hF s fun v s => holderOnly_quiet s fun s => ?_
    unfold setApplyMode
    repeat' split
    all_goals first | rfl | exact hK _ _
  case configureRaster p =>
    simp only [exec, execConfigureRaster, Host.Outcome.next.injEq] at h
    subst h
    refine configureItem_quiet hF s fun v s => holderOnly_quiet s fun s => ?_
    unfold setRaster
    repeat' split
    all_goals first | rfl | exact hK _ _
  all_goals
    simp only [exec, execStageEntry, execStageClear, execStageCopy, execArmActivation, execDisarm, execActivateNow,
      Host.Outcome.next.injEq] at h
    subst h
    refine serve_quiet hF s fun body s r s'' h => ?_
    simp only [editing, holderOnly, stageEntry, storeEntry, applyInOperate, stageClear, stageCopy, armActivation,
      disarm, activateNow, activateDone] at h
    repeat' split at h
    all_goals first | (cases h; done) | (cases h; first | rfl | exact hK _ _ | exact hw _ _ | exact hact _ _)

/-- A command of the Licence Store writes the Licence Store's state alone. -/
theorem licence_quiet {α : Type} {F : State → α} (hF : Quiet F) (hK : ∀ (s : State) k, F { s with licence := k } = F s)
    {c : Instr} {s t : State} (hc : blockOf c = .licence) (h : exec c s = .next t) : F t = F s := by
  have hl : ∀ k s, F (State.setLicence k s) = F s := fun k s => hK _ _
  have hr : ∀ k s, F (State.report k s) = F s := fun k s => send_quiet hF _ _
  cases c <;> first | (cases hc; done) | skip
  case startUpLoadEnd read =>
    simp only [exec, execStartUpLoadEnd, Host.Outcome.next.injEq] at h
    subst h
    unfold State.endLoad
    repeat' split
    all_goals simp only [hl, hr]
  case programmingCompletion read =>
    simp only [exec, execProgrammingCompletion, State.completeProgramming, Host.Outcome.next.injEq] at h
    subst h
    repeat' split
    all_goals simp only [hl, hr]
  case eraseCompletion =>
    simp only [exec, execEraseCompletion, State.completeErase, Host.Outcome.next.injEq] at h
    subst h
    repeat' split
    all_goals simp only [hl, hr]
  all_goals
    simp only [exec, execLicenceEntry, execLicenceCommit, execLicenceErase, Host.Outcome.next.injEq] at h
    subst h
    refine serve_quiet hF s fun body s r s'' h => ?_
    simp only [licensing, holderOnly, licenceEntry, licenceCommit, licenceErase, writeWorking] at h
    repeat' split at h
    all_goals first | (cases h; done) | (cases h; first | rfl | exact hl _ _)

/-- A command of the Epoch Timebase writes the Epoch Timebase's state alone. -/
theorem timebase_quiet {α : Type} {F : State → α} (hF : Quiet F)
    (hK : ∀ (s : State) k, F { s with timebase := k } = F s) {c : Instr} {s t : State} (hc : blockOf c = .timebase)
    (h : exec c s = .next t) : F t = F s := by
  cases c <;> first | (cases hc; done) | skip
  case epochEnd =>
    simp only [exec, execEpochEnd, Host.Outcome.next.injEq] at h
    subst h
    refine whenRunning_quiet s fun s => ?_
    unfold State.lastUnitPasses
    repeat' split
    · rfl
    · rw [State.endEpoch, send_quiet hF, hK]
    · rfl
  case setEpoch p =>
    simp only [exec, execSetEpoch, Host.Outcome.next.injEq] at h
    subst h
    refine serve_quiet hF s fun body s r s'' h => ?_
    simp only [holderOnly, setEpochPeriod] at h
    repeat' split at h
    all_goals first | (cases h; done) | (cases h; first | rfl | exact hK _ _)

/-- A command of the Channel Sequencer block writes its six parameters alone. -/
theorem params_quiet {α : Type} {F : State → α} (hF : Quiet F) (hK : ∀ (s : State) k, F { s with params := k } = F s)
    {c : Instr} {s t : State} (hc : blockOf c = .params) (h : exec c s = .next t) : F t = F s := by
  cases c <;> first | (cases hc; done) | skip
  case sequencerParametersInitialize =>
    simp only [exec, execSequencerParametersInitialize, Host.Outcome.next.injEq] at h
    subst h
    exact takeInitNotice_quiet hF s fun s => hK _ _
  all_goals
    simp only [exec, execConfigureTuneLimit, execConfigureSettleEpochs, execConfigureFoldbackStep,
      execConfigureRecoverWindows, execConfigureReflLimit, execConfigureCarrierFloor, Host.Outcome.next.injEq] at h
    subst h
    refine configureItem_quiet hF s fun v s => holderOnly_quiet s fun s => ?_
    unfold setParams
    split
    · rfl
    · exact hK _ _

/-- A command of a channel's sequencer writes the channel records alone. -/
theorem channels_quiet {α : Type} {F : State → α} (hF : Quiet F)
    (hK : ∀ (s : State) k, F { s with channels := k } = F s) {c : Instr} {s t : State} (hc : blockOf c = .channels)
    (h : exec c s = .next t) : F t = F s := by
  have hcom : ∀ c o s, F (State.commit c o s) = F s := fun c o s => by
    rw [State.commit, send_quiet hF]
    exact hK _ _
  have htick : ∀ c due s, F (tickChannel c due s) = F s := fun c due s => by
    unfold tickChannel
    split
    · exact takeTick_quiet hF s fun n s => hcom _ _ _
    · rfl
  have hres : ∀ c q f s, F (takeResult c q f s) = F s := fun c q f s => by
    unfold takeResult
    repeat' split
    · rename_i heq _
      rw [hcom, take_quiet hF heq]
    all_goals rfl
  cases c <;> first | (cases hc; done) | skip
  case restartChannel p b =>
    simp only [exec, execRestartChannel, Host.Outcome.next.injEq] at h
    subst h
    refine serve_quiet hF s fun body s r s'' h => ?_
    simp only [holderOnly, restartChannel] at h
    repeat' split at h
    all_goals first | (cases h; done) | (cases h; first | rfl | exact hcom _ _ _)
  case lockLineChange c side asserted =>
    simp only [exec, execLockLineChange, Host.Outcome.next.injEq] at h
    subst h
    refine whenRunning_quiet s fun s => ?_
    split
    · rfl
    · exact hcom _ _ _
  all_goals
    simp only [exec, execSequencerTick, execLockTimeout, execBlankingEnd, execSettlingExpiry, execEntryChange,
      execSiteStart, execSiteStop, execTuneWriteCompletion, execRxResult, execReflResult, execFwdResult,
      execFaultShutdown, Host.Outcome.next.injEq] at h
    subst h
    first
      | exact htick _ _ _
      | exact hres _ _ _ _
      | (split
         · rename_i heq
           rw [hcom, take_quiet hF heq]
         · rfl)

/-- A command of the link writes the link's state alone. -/
theorem link_quiet {α : Type} {F : State → α} (hF : Quiet F) (hK : ∀ (s : State) k, F { s with link := k } = F s)
    {c : Instr} {s t : State} (hc : blockOf c = .link) (h : exec c s = .next t) : F t = F s := by
  cases c <;> first | (cases hc; done) | skip
  case writeDemand c =>
    simp only [exec, execWriteDemand, Host.Outcome.next.injEq] at h
    subst h
    split
    · rename_i heq
      split
      · rw [hK, take_quiet hF heq]
      · rfl
    · rfl
  case linkWriteComplete =>
    simp only [exec, execLinkWriteComplete, Host.Outcome.next.injEq] at h
    subst h
    split
    · rw [send_quiet hF, hK]
    · rfl

/-- A command of the Level Monitor writes the Level Monitor's state alone. -/
theorem level_quiet {α : Type} {F : State → α} (hF : Quiet F) (hK : ∀ (s : State) k, F { s with level := k } = F s)
    {c : Instr} {s t : State} (hc : blockOf c = .level) (h : exec c s = .next t) : F t = F s := by
  cases c <;> first | (cases hc; done) | skip
  case sampleArrival bits =>
    simp only [exec, execSampleArrival, Host.Outcome.next.injEq] at h
    subst h
    have hword : ∀ bits s, F (State.takeSample bits s) = F s := fun bits s => by
      simp only [State.takeSample, State.judgeSample, State.addLevel, State.completeWindow, State.offer, State.report]
      repeat' split
      all_goals simp only [send_quiet hF, hK]
    exact whenRunning_quiet s fun s => (hword _ _).trans (hK _ _)
  case offNotice c =>
    simp only [exec, execOffNotice, Host.Outcome.next.injEq] at h
    subst h
    split
    · rename_i heq
      rw [hK, take_quiet hF heq]
    · rfl
  case levelMonitorInitialize =>
    simp only [exec, execLevelMonitorInitialize, Host.Outcome.next.injEq] at h
    subst h
    exact takeInitNotice_quiet hF s fun s => hK _ _
  case readReports p =>
    simp only [exec, execReadReports, Host.Outcome.next.injEq] at h
    subst h
    refine serve_quiet hF s fun body s r s'' h => ?_
    simp only [readReports] at h
    repeat' split at h
    all_goals first | (cases h; done) | (cases h; first | rfl | exact hK _ _)
  case flushReports p =>
    simp only [exec, execFlushReports, Host.Outcome.next.injEq] at h
    subst h
    exact serveOnly_quiet hF s fun s => holderOnly_quiet s fun s => hK _ _
  all_goals
    simp only [exec, execConfigureWindowLength, execConfigureSampleFormat, execConfigureReportSelect,
      execConfigureReportThreshold, Host.Outcome.next.injEq] at h
    subst h
    refine configureItem_quiet hF s fun v s => holderOnly_quiet s fun s => ?_
    simp only [setMeasurement, setReportSelect, setReportThreshold]
    repeat' split
    all_goals first | rfl | exact hK _ _

/-- A command of the Authority Unit writes the Authority Unit's state alone. -/
theorem authority_quiet {α : Type} {F : State → α} (hF : Quiet F)
    (hK : ∀ (s : State) k, F { s with authority := k } = F s) {c : Instr} {s t : State} (hc : blockOf c = .authority)
    (h : exec c s = .next t) : F t = F s := by
  have htick : ∀ s, F (takeTick .authority (fun _ => State.authorityTick) s) = F s := fun s =>
    takeTick_quiet hF s fun n s => by rw [State.authorityTick, send_quiet hF, hK]
  cases c <;> first | (cases hc; done) | skip
  case authorityTick =>
    simp only [exec, execAuthorityTick, Host.Outcome.next.injEq] at h
    subst h
    exact htick s
  case keepaliveLapse =>
    simp only [exec, execKeepaliveLapse, Host.Outcome.next.injEq] at h
    subst h
    split
    · exact htick s
    · rfl
  case configureKeepaliveLimit p =>
    simp only [exec, execConfigureKeepaliveLimit, Host.Outcome.next.injEq] at h
    subst h
    refine configureItem_quiet hF s fun v s => holderOnly_quiet s fun s => ?_
    unfold setKeepaliveLimit
    split
    · exact hK _ _
    · rfl
  all_goals
    simp only [exec, execClaim, execReserve, execRelease, execKeepalive, Host.Outcome.next.injEq] at h
    subst h
    refine serveOnly_quiet hF s fun s => ?_
    simp only [claimAuthority, reserveAuthority, releaseAuthority, keepAuthority, State.stand, State.report]
    repeat' split
    all_goals simp only [send_quiet hF, hK]

/-- A command of Mode Control writes Mode Control's state alone. -/
theorem mode_quiet {α : Type} {F : State → α} (hF : Quiet F) (hK : ∀ (s : State) k, F { s with mode := k } = F s)
    {c : Instr} {s t : State} (hc : blockOf c = .mode) (h : exec c s = .next t) : F t = F s := by
  have hgo : ∀ x s, F (State.goStandby x s) = F s := fun x s => by
    unfold State.goStandby State.enterStandby
    split
    · rw [send_quiet hF, hK]
    · rfl
  have hop : ∀ s, F (State.enterOperate s) = F s := fun s => by rw [State.enterOperate, send_quiet hF, hK]
  cases c <;> first | (cases hc; done) | skip
  case faultStandby n =>
    simp only [exec, execFaultStandby, Host.Outcome.next.injEq] at h
    subst h
    split
    · rename_i heq
      rw [hgo, take_quiet hF heq]
    · rfl
  case initializeNoticeReport b =>
    simp only [exec, execInitializeNoticeReport, Host.Outcome.next.injEq] at h
    subst h
    split
    · rename_i heq
      rw [hK, take_quiet hF heq]
    · rfl
  case siteStandby p =>
    simp only [exec, execSiteStandby, Host.Outcome.next.injEq] at h
    subst h
    exact serveOnly_quiet hF s fun s => hgo _ _
  case initializeSite p =>
    simp only [exec, execInitializeSite, Host.Outcome.next.injEq] at h
    subst h
    refine serveOnly_quiet hF s fun s => holderOnly_quiet s fun s => ?_
    unfold initializeAll
    repeat' split
    all_goals first | rfl | exact (send_quiet hF _ _).trans (hK _ _)
  all_goals
    simp only [exec, execSetModeOperate, execSetModeStandby, Host.Outcome.next.injEq] at h
    subst h
    refine serve_quiet hF s fun body s r s'' h => ?_
    simp only [holderOnly, setOperate] at h
    repeat' split at h
    all_goals first | (cases h; done) | (cases h; first | rfl | exact hgo _ _ | exact hop _)

/-- A command of the Fault Line Monitor writes the fault lines alone. -/
theorem lines_quiet {α : Type} {F : State → α} (hF : Quiet F) (hK : ∀ (s : State) k, F { s with lines := k } = F s)
    {c : Instr} {s t : State} (hc : blockOf c = .lines) (h : exec c s = .next t) : F t = F s := by
  have hch : ∀ n l s, F (State.changeLine n l s) = F s := fun n l s => by
    rw [State.changeLine, send_quiet hF]
    exact hK _ _
  cases c <;> first | (cases hc; done) | skip
  case configureLine p =>
    simp only [exec, execConfigureLine, Host.Outcome.next.injEq] at h
    subst h
    refine configureItem_quiet hF s fun v s => holderOnly_quiet s fun s => ?_
    unfold setLineConfig
    repeat' split
    all_goals first | rfl | exact hch _ _ _
  case faultPinChange n high =>
    simp only [exec, execFaultPinChange, Host.Outcome.next.injEq] at h
    subst h
    exact whenRunning_quiet s fun s => hK _ _
  case filterIntervalEnd n =>
    simp only [exec, execFilterIntervalEnd, Host.Outcome.next.injEq] at h
    subst h
    refine whenRunning_quiet s fun s => ?_
    split
    · exact hch _ _ _
    · rfl
  case faultLineInitialize =>
    simp only [exec, execFaultLineInitialize, Host.Outcome.next.injEq] at h
    subst h
    exact takeInitNotice_quiet hF s fun s => by rw [State.initializeLines, send_quiet hF, hK]

/-- A command of the Condition Table writes the Condition Table's state alone. -/
theorem conditions_quiet {α : Type} {F : State → α} (hF : Quiet F)
    (hK : ∀ (s : State) k, F { s with conditions := k } = F s) {c : Instr} {s t : State}
    (hc : blockOf c = .conditions) (h : exec c s = .next t) : F t = F s := by
  have hk : ∀ k s, F (State.setConditions k s) = F s := fun k s => hK _ _
  cases c <;> first | (cases hc; done) | skip
  case acknowledge p =>
    simp only [exec, execAcknowledge, Host.Outcome.next.injEq] at h
    subst h
    exact serveOnly_quiet hF s fun s => hk _ _
  case conditionTableInitialize =>
    simp only [exec, execConditionTableInitialize, Host.Outcome.next.injEq] at h
    subst h
    exact takeInitNotice_quiet hF s fun s => hk _ _
  case occurrence i =>
    simp only [exec, execOccurrence, Host.Outcome.next.injEq] at h
    subst h
    split
    · rename_i heq
      rw [hk, take_quiet hF heq]
    · rfl
  case deassertionNotice n =>
    simp only [exec, execDeassertionNotice, Host.Outcome.next.injEq] at h
    subst h
    split
    · rename_i heq
      rw [hk, take_quiet hF heq]
    · rfl
  all_goals
    simp only [exec, execReadConditions, execClearConditions, execSetAttention, Host.Outcome.next.injEq] at h
    subst h
    refine serve_quiet hF s fun body s r s'' h => ?_
    split at h
    · simp only [readConditions, clearConditions, setAttention, Option.some.injEq] at h
      repeat' split at h
      all_goals (obtain ⟨-, rfl⟩ := Prod.mk.inj h; exact hk _ _)
    · cases h

/-- A command of the ports writes the ports and what is in transit alone. -/
theorem ports_quiet {α : Type} {F : State → α} (hF : Quiet F) {c : Instr} {s t : State} (hc : blockOf c = .ports)
    (h : exec c s = .next t) : F t = F s := by
  have hi : ∀ i s, F (State.setPorts i s) = F s := fun i s => hF.ports _ _
  have hd : ∀ p tag x s, F (State.dispatch p tag x s) = F s := fun p tag x s => by
    unfold State.dispatch
    split
    all_goals simp only [answer_quiet hF, send_quiet hF]
  have hrec : ∀ p bytes s, F (whenRunning (State.receive p bytes) s) = F s := fun p bytes s => by
    refine whenRunning_quiet s fun s => ?_
    unfold State.receive
    split
    · exact hi _ _
    · simp only [State.takeFrame, State.takeAddressed, State.takeBroadcast]
      repeat' split
      all_goals simp only [hi, hd, answer_quiet hF, send_quiet hF]
  cases c <;> first | (cases hc; done) | skip
  all_goals
    simp only [exec, execRequestFrameComplete, execIdentify, execReadStatus, execPortReadTransfer, execSelectPeriodEnd,
      execPortSIdleDetect, execPortSFramingError, execResponseTransmissionStart, execResponseTransmissionEnd,
      execLengthByteAbove60, Host.Outcome.next.injEq] at h
    subst h
    first
      | exact hrec _ _ _
      | (split
         · exact hrec _ _ _
         · rfl)
      | (refine whenRunning_quiet s fun s => ?_
         unfold State.setReceiver
         exact hi _ _)
      | (refine whenRunning_quiet s fun s => ?_
         repeat' split
         all_goals first | rfl | exact hi _ _)

end Sys2Proof.Machine
end

