-- ==== Sys2Proof/Laws/Transit.lean ====
section
/-!
SUPPORT. What each command does to the messages in transit, said once: it takes at most one, of the kinds its row names,
and sends others behind the rest, of the kinds its block sends.
-/

namespace Sys2Proof.Machine

/-! ## Kinds of messages -/

/-- A message that is neither an entry change nor a standby notice. -/
def Message.isPlain : Message → Bool
  | .entryChange _ _ | .standbyNotice => false
  | _ => true

/-- A request. -/
def Message.isAnyRequest : Message → Bool
  | .request _ _ _ _ => true
  | _ => false

/-- An entry change. -/
def Message.isAnyEntryChange : Message → Bool
  | .entryChange _ _ => true
  | _ => false

/-- A tick. -/
def Message.isAnyTick : Message → Bool
  | .tick _ _ => true
  | _ => false

/-- A message that is no entry change, no standby notice, no request and no tick. -/
def Message.isOrdinary : Message → Bool
  | .entryChange _ _ | .standbyNotice | .request _ _ _ _ | .tick _ _ => false
  | _ => true

/-- What a block sends. -/
def sendsOf : Block → Message → Bool
  | .plan, m => m.isOrdinary || m.isAnyEntryChange
  | .mode, m => m.isOrdinary || m.isStandbyNotice
  | .ports, m => m.isAnyRequest
  | .timebase, m => m.isAnyTick
  | _, m => m.isOrdinary

/-- What a command takes. -/
def takesOf : Instr → Message → Bool
  | .entryChange c, m => m.isEntryChange c
  | .standbyNotice, m => m.isStandbyNotice
  | _, m => m.isPlain

/-! ## Taking one, sending some -/

/-- t's messages are s's with others, of a kind, behind them. -/
def Sent (sends : Message → Bool) (s t : State) : Prop :=
  ∃ sent, t.transit = s.transit ++ sent ∧ ∀ m ∈ sent, sends m = true

/-- A list of messages with at most one taken, of a kind, and others, of a kind, put behind. -/
def Carried (takes sends : Message → Bool) (l l' : List Message) : Prop :=
  ∃ ms sent, l' = ms ++ sent ∧ (ms = l ∨ ∃ key m, pull key l = some (m, ms) ∧ takes m = true)
    ∧ ∀ m ∈ sent, sends m = true

theorem Sent.same {sends : Message → Bool} {s t : State} (h : t.transit = s.transit) : Sent sends s t :=
  ⟨[], by simp [h], by simp⟩

theorem Sent.then {sends : Message → Bool} {s t u : State} (h : Sent sends s t) (h' : Sent sends t u) :
    Sent sends s u := by
  obtain ⟨a, ha, hsa⟩ := h
  obtain ⟨b, hb, hsb⟩ := h'
  refine ⟨a ++ b, by rw [hb, ha, List.append_assoc], fun m hm => ?_⟩
  rcases List.mem_append.1 hm with h | h
  · exact hsa m h
  · exact hsb m h

theorem Sent.send {sends : Message → Bool} {s : State} {ms : List Message} (h : ∀ m ∈ ms, sends m = true) :
    Sent sends s (s.send ms) := ⟨ms, rfl, h⟩

theorem Sent.carried {takes sends : Message → Bool} {s t : State} (h : Sent sends s t) :
    Carried takes sends s.transit t.transit := by
  obtain ⟨sent, h, hs⟩ := h
  exact ⟨_, sent, h, Or.inl rfl, hs⟩

theorem Carried.mono {takes sends sends' : Message → Bool} {l l' : List Message} (h : Carried takes sends l l')
    (hs : ∀ m, sends m = true → sends' m = true) : Carried takes sends' l l' := by
  obtain ⟨ms, sent, hl, hm, h⟩ := h
  exact ⟨ms, sent, hl, hm, fun m hm => hs m (h m hm)⟩

/-- A message that was not there before is one of those sent. -/
theorem Carried.mem {takes sends : Message → Bool} {l l' : List Message} {m : Message} (h : Carried takes sends l l')
    (hm : m ∈ l') : m ∈ l ∨ sends m = true := by
  obtain ⟨ms, sent, rfl, hl, hs⟩ := h
  rcases List.mem_append.1 hm with hm | hm
  · rcases hl with rfl | ⟨key, x, hp, -⟩
    · exact Or.inl hm
    · exact Or.inl (mem_of_pull hp hm)
  · exact Or.inr (hs m hm)

/-- A message of a kind that is not taken stays, as often as it was there. -/
theorem Carried.count_le {takes sends : Message → Bool} {l l' : List Message} {m : Message} (h : Carried takes sends l l')
    (ht : takes m = false) : l.count m ≤ l'.count m := by
  obtain ⟨ms, sent, rfl, hl, -⟩ := h
  rw [List.count_append]
  rcases hl with rfl | ⟨key, x, hp, hx⟩
  · exact Nat.le_add_right _ _
  · rw [count_pull hp (by rintro rfl; simp [ht] at hx)]
    exact Nat.le_add_right _ _

theorem Carried.same {takes sends : Message → Bool} (l : List Message) : Carried takes sends l l :=
  ⟨l, [], by simp, Or.inl rfl, by simp⟩

/-- One message taken, then others sent. -/
theorem carried_take {takes sends : Message → Bool} {key : Message → Bool} {m : Message} {s s' t : State}
    (h : s.take key = some (m, s')) (hm : takes m = true) (ht : Sent sends s' t) :
    Carried takes sends s.transit t.transit := by
  obtain ⟨ms, hp, rfl⟩ := take_some h
  obtain ⟨sent, h, hs⟩ := ht
  exact ⟨ms, sent, h, Or.inr ⟨key, m, hp, hm⟩, hs⟩

theorem answer_transit (p : Port) (tag : Option Byte) (r : Reply) (s : State) :
    (s.answer p tag r).transit = s.transit := by
  unfold State.answer
  split <;> rfl

theorem serve_carried {takes sends : Message → Bool} {o : Owner} {p : Port}
    {f : Request → State → Option (Reply × State)} (s : State)
    (hr : ∀ tag body, takes (.request o p tag body) = true)
    (hf : ∀ body s r s'', f body s = some (r, s'') → Sent sends s s'') :
    Carried takes sends s.transit (serve o p f s).transit := by
  rcases serve_cases o p f s with h | ⟨tag, body, ms, r, s'', ha, hp, h, h'⟩
  · rw [h]
    exact Carried.same _
  · rw [h']
    exact carried_take ha (hr _ _) ((hf _ _ _ _ h).then (Sent.same (answer_transit _ _ _ _)))

theorem serveOnly_carried {takes sends : Message → Bool} {o : Owner} {p : Port} {req : Request}
    {f : State → Reply × State} (s : State) (hr : ∀ tag body, takes (.request o p tag body) = true)
    (hf : ∀ s, Sent sends s (f s).2) : Carried takes sends s.transit (serveOnly o p req f s).transit := by
  refine serve_carried s hr fun body s r s'' h => ?_
  split_ifs at h
  have := hf s
  cases h' : f s
  simp_all

theorem configureItem_carried {takes sends : Message → Bool} {i : Item} {p : Port}
    {f : List Byte → State → Reply × State} (s : State) (hr : ∀ tag body, takes (.request i.owner p tag body) = true)
    (hf : ∀ v s, Sent sends s (f v s).2) : Carried takes sends s.transit (configureItem i p f s).transit := by
  refine serve_carried s hr fun body s r s'' h => ?_
  split at h
  · split_ifs at h
    rename_i v _
    have := hf v s
    cases h' : f v s
    simp_all
  · simp at h

theorem readItem_carried {takes sends : Message → Bool} {i : Item} {p : Port} {f : List Byte → State → Reply}
    (s : State) (hr : ∀ tag body, takes (.request i.owner p tag body) = true) :
    Carried takes sends s.transit (readItem i p f s).transit := by
  refine serve_carried s hr fun body s r s'' h => ?_
  split at h
  · split_ifs at h
    cases h
    exact Sent.same rfl
  · simp at h

theorem holderOnly_sent {sends : Message → Bool} {p : Port} {f : State → Reply × State} (s : State)
    (hf : ∀ s, Sent sends s (f s).2) : Sent sends s (holderOnly p f s).2 := by
  unfold holderOnly
  split
  · exact hf s
  · exact Sent.same rfl

theorem takeTick_carried {takes sends : Message → Bool} {k : TickConsumer} {f : Word16 → State → State} (s : State)
    (hr : ∀ n, takes (.tick k n) = true) (hf : ∀ n s, Sent sends s (f n s)) :
    Carried takes sends s.transit (takeTick k f s).transit := by
  rcases takeTick_cases k f s with h | ⟨n, ms, hp, h⟩
  · rw [h]
    exact Carried.same _
  · rw [h]
    exact carried_take (key := Message.isTick k) (s' := { s with transit := ms }) (by simp [State.take, hp]) (hr n) (hf n _)

theorem takeInitNotice_carried {takes sends : Message → Bool} {b : InitBlock} {f : State → State} (s : State)
    (hr : takes (.initNotice b) = true) (hs : sends (.initReport b) = true) (hf : ∀ s, Sent sends s (f s)) :
    Carried takes sends s.transit (takeInitNotice b f s).transit := by
  rcases takeInitNotice_cases b f s with h | ⟨ms, hp, h⟩
  · rw [h]
    exact Carried.same _
  · rw [h]
    exact carried_take (key := Message.isInitNotice b) (s' := { s with transit := ms }) (by simp [State.take, hp]) hr
      ((hf _).then (Sent.send (by simpa using hs)))

theorem whenRunning_carried {takes sends : Message → Bool} {f : State → State} (s : State)
    (hf : ∀ s, Sent sends s (f s)) : Carried takes sends s.transit (whenRunning f s).transit := by
  unfold whenRunning
  split
  · exact (hf s).carried
  · exact Carried.same _

/-! ## The messages of the shared operations -/

theorem commit_messages_ordinary (c : Chan) (old : Channel) (o : SeqOutcome) :
    ∀ m ∈ o.messages c old, m.isOrdinary = true := by
  intro m hm
  simp only [SeqOutcome.messages, List.mem_append] at hm
  rcases hm with (h | h) | h
  · split at h <;> simp_all [Message.isOrdinary]
  · split at h <;> simp_all [Message.isOrdinary]
  · obtain ⟨k, -, rfl⟩ := List.mem_map.1 h
    rfl

theorem commit_sent (c : Chan) (o : SeqOutcome) (s : State) : Sent (sendsOf .channels) s (s.commit c o) :=
  (Sent.same (t := s.setChannel c (o.final (s.channels.get c))) rfl).then
    (Sent.send (commit_messages_ordinary _ _ _))

theorem lineMessages_ordinary (n : Line) (old new : FaultLine) :
    ∀ m ∈ lineMessages n old new, m.isOrdinary = true := by
  intro m hm
  unfold lineMessages assertionMessages actionMessages at hm
  repeat' split at hm
  all_goals
    simp only [List.mem_cons, List.not_mem_nil, or_false, List.mem_map, List.mem_filter] at hm
    try (rcases hm with rfl | ⟨c, -, rfl⟩ <;> rfl)

theorem writePlan_sent (k : PlanController) (s : State) : Sent (sendsOf .plan) s (s.writePlan k) := by
  refine (Sent.same (t := { s with plan := k }) rfl).then (Sent.send fun m hm => ?_)
  obtain ⟨c, -, h⟩ := List.mem_filterMap.1 hm
  split at h
  · cases h
  · cases h
    rfl

theorem report_sent {b : Block} (k : SiteKind) (s : State) (h : b ≠ .ports) (h' : b ≠ .timebase) : Sent (sendsOf b) s (s.report k) := by
  refine Sent.send fun m hm => ?_
  obtain rfl := List.mem_singleton.1 hm
  cases b <;> first | rfl | exact absurd rfl h | exact absurd rfl h'

/-! ## Every command -/

/-- What a command of the Plan Controller does to the messages in transit. -/
theorem plan_carried {c : Instr} {s t : State} (hc : blockOf c = .plan) (h : exec c s = .next t) :
    Carried (takesOf c) (sendsOf .plan) s.transit t.transit := by
  have hr : ∀ k s, Sent (sendsOf .plan) s (State.report k s) := fun k s => report_sent k s (by decide) (by decide)
  have hact : ∀ n s, Sent (sendsOf .plan) s (State.activate n s) := fun n s =>
    (hr _ _).then (writePlan_sent _ _)
  have haba : ∀ s, Sent (sendsOf .plan) s (State.abandon s) := fun s =>
    (Sent.same (t := s.setPending none) rfl).then (hr _ _)
  have htick : ∀ n s, Sent (sendsOf .plan) s (State.planTick n s) := fun n s => by
    unfold State.planTick State.deferralTest State.targetTest
    repeat' split
    all_goals first | exact hact _ _ | exact haba _ | exact Sent.same rfl
  cases c <;> first | (cases hc; done) | skip
  case planControllerTick | activationAbandoned =>
    simp only [exec, execPlanControllerTick, execActivationAbandoned, State.takePlanTick, Host.Outcome.next.injEq] at h
    subst h
    repeat' split
    all_goals first
      | exact takeTick_carried s (fun _ => rfl) htick
      | exact Carried.same _
  case standbyNotice =>
    simp only [exec, execStandbyNotice, Host.Outcome.next.injEq] at h
    subst h
    split
    · rename_i heq
      refine carried_take heq (take_key heq) ?_
      unfold State.takeStandbyNotice
      split
      · exact haba _
      · exact Sent.same rfl
    · exact Carried.same _
  case planControllerInitialize =>
    simp only [exec, execPlanControllerInitialize, Host.Outcome.next.injEq] at h
    subst h
    refine takeInitNotice_carried s rfl rfl fun s => ?_
    unfold State.initializePlan
    split
    · exact (hr _ _).then (writePlan_sent _ _)
    · exact writePlan_sent _ _
  case configureApplyMode p =>
    simp only [exec, execConfigureApplyMode, Host.Outcome.next.injEq] at h
    subst h
    refine configureItem_carried s (fun _ _ => rfl) fun v s => holderOnly_sent s fun s => Sent.same ?_
    unfold setApplyMode
    repeat' split
    all_goals rfl
  case configureRaster p =>
    simp only [exec, execConfigureRaster, Host.Outcome.next.injEq] at h
    subst h
    refine configureItem_carried s (fun _ _ => rfl) fun v s => holderOnly_sent s fun s => Sent.same ?_
    unfold setRaster
    repeat' split
    all_goals rfl
  all_goals
    simp only [exec, execStageEntry, execStageClear, execStageCopy, execArmActivation, execDisarm, execActivateNow,
      Host.Outcome.next.injEq] at h
    subst h
    refine serve_carried s (fun _ _ => rfl) fun body s r s'' h => ?_
    simp only [editing, holderOnly, stageEntry, storeEntry, applyInOperate, stageClear, stageCopy, armActivation,
      disarm, activateNow, activateDone] at h
    repeat' split at h
    all_goals first
      | (cases h; done)
      | (cases h; first | exact writePlan_sent _ _ | exact hact _ _ | exact Sent.same rfl)

/-- What a command of Mode Control does to the messages in transit. -/
theorem mode_carried {c : Instr} {s t : State} (hc : blockOf c = .mode) (h : exec c s = .next t) :
    Carried (takesOf c) (sendsOf .mode) s.transit t.transit := by
  have hgo : ∀ x s, Sent (sendsOf .mode) s (State.goStandby x s) := fun x s => by
    unfold State.goStandby
    split
    · exact (Sent.same (t := { s with mode := { s.mode with mode := .standby, cause := x } }) rfl).then
        (Sent.send (by decide))
    · exact Sent.same rfl
  have hop : ∀ s, Sent (sendsOf .mode) s (State.enterOperate s) := fun s =>
    (Sent.same (t := { s with mode := { s.mode with mode := .operate } }) rfl).then (Sent.send (by decide))
  cases c <;> first | (cases hc; done) | skip
  case faultStandby n =>
    simp only [exec, execFaultStandby, Host.Outcome.next.injEq] at h
    subst h
    split
    · rename_i m s' heq
      have hk := take_key heq
      refine carried_take heq ?_ (hgo _ _)
      cases m <;> first | rfl | cases hk
    · exact Carried.same _
  case initializeNoticeReport b =>
    simp only [exec, execInitializeNoticeReport, Host.Outcome.next.injEq] at h
    subst h
    split
    · rename_i m s' heq
      have hk := take_key heq
      refine carried_take heq ?_ (Sent.same rfl)
      cases m <;> first | rfl | cases hk
    · exact Carried.same _
  case siteStandby p =>
    simp only [exec, execSiteStandby, Host.Outcome.next.injEq] at h
    subst h
    exact serveOnly_carried s (fun _ _ => rfl) fun s => hgo _ _
  case initializeSite p =>
    simp only [exec, execInitializeSite, Host.Outcome.next.injEq] at h
    subst h
    refine serveOnly_carried s (fun _ _ => rfl) fun s => holderOnly_sent s fun s => ?_
    unfold initializeAll
    repeat' split
    · exact Sent.same rfl
    · exact Sent.same rfl
    · exact (Sent.same (t := { s with mode := { s.mode with awaited := initBlocks } }) rfl).then
        (Sent.send (by decide))
  all_goals
    simp only [exec, execSetModeOperate, execSetModeStandby, Host.Outcome.next.injEq] at h
    subst h
    refine serve_carried s (fun _ _ => rfl) fun body s r s'' h => ?_
    simp only [holderOnly, setOperate] at h
    repeat' split at h
    all_goals first
      | (cases h; done)
      | (cases h; first | exact hgo _ _ | exact hop _ | exact Sent.same rfl)

/-- All that a command of the ports puts behind the messages in transit: the requests that frames spell, and the
broadcast SITE STANDBY. It takes none. -/
theorem ports_send_requests {sends : Message → Bool} {c : Instr} {s t : State} (hc : blockOf c = .ports)
    (h : exec c s = .next t) (hb : sends (.request .mode .s none .siteStandby) = true)
    (hq : ∀ o p tag code payload body, parseRequest code payload = .request o body →
      sends (.request o p (some tag) body) = true) : Sent sends s t := by
  have hd : ∀ p tag f s, Sent sends s (State.dispatch p tag (parseFrame f) s) := fun p tag f s => by
    unfold State.dispatch
    split
    all_goals first
      | exact Sent.same (answer_transit _ _ _ _)
      | exact Sent.send (by simpa using hq _ _ _ _ _ _ ‹parseFrame f = _›)
  have hrec : ∀ p bytes s, Sent sends s (whenRunning (State.receive p bytes) s) := fun p bytes s => by
    unfold whenRunning
    split
    · unfold State.receive
      split
      · exact Sent.same rfl
      · rename_i i f _
        refine (Sent.same (t := s.setPorts i) rfl).then ?_
        simp only [State.takeFrame, State.takeAddressed, State.takeBroadcast]
        repeat' split
        all_goals first
          | exact hd _ _ _ _
          | exact Sent.same (answer_transit _ _ _ _)
          | exact Sent.send (by simpa using hb)
          | exact Sent.same rfl
    · exact Sent.same rfl
  cases c <;> first | (cases hc; done) | skip
  all_goals
    simp only [exec, execRequestFrameComplete, execIdentify, execReadStatus, execPortReadTransfer, execSelectPeriodEnd,
      execPortSIdleDetect, execPortSFramingError, execResponseTransmissionStart, execResponseTransmissionEnd,
      execLengthByteAbove60, Host.Outcome.next.injEq] at h
    subst h
    first
      | exact hrec _ _ _
      | (split
         · exact hrec _ _ _
         · exact Sent.same rfl)
      | (unfold whenRunning
         try dsimp only
         repeat' split
         all_goals exact Sent.same rfl)

/-- What a command of the ports does to the messages in transit: it takes none. -/
theorem ports_sent {c : Instr} {s t : State} (hc : blockOf c = .ports) (h : exec c s = .next t) :
    Sent (sendsOf .ports) s t :=
  ports_send_requests hc h rfl fun _ _ _ _ _ _ _ => rfl

/-- What a command of the Condition Table does to the messages in transit. -/
theorem conditions_carried {c : Instr} {s t : State} (hc : blockOf c = .conditions) (h : exec c s = .next t) :
    Carried (takesOf c) Message.isOrdinary s.transit t.transit := by
  cases c <;> first | (cases hc; done) | skip
  case acknowledge =>
    simp only [exec, execAcknowledge, Host.Outcome.next.injEq] at h
    subst h
    exact serveOnly_carried s (fun _ _ => rfl) fun s => Sent.same rfl
  case conditionTableInitialize =>
    simp only [exec, execConditionTableInitialize, Host.Outcome.next.injEq] at h
    subst h
    exact takeInitNotice_carried s rfl rfl fun s => Sent.same rfl
  case occurrence | deassertionNotice =>
    simp only [exec, execOccurrence, execDeassertionNotice, Host.Outcome.next.injEq] at h
    subst h
    split
    · rename_i heq
      exact carried_take heq rfl (Sent.same rfl)
    · exact Carried.same _
  all_goals
    simp only [exec, execReadConditions, execClearConditions, execSetAttention, Host.Outcome.next.injEq] at h
    subst h
    refine serve_carried s (fun _ _ => rfl) fun body s r s'' h => Sent.same ?_
    split at h
    · simp only [readConditions, clearConditions, setAttention, Option.some.injEq] at h
      repeat' split at h
      all_goals (obtain ⟨-, rfl⟩ := Prod.mk.inj h; exact State.setConditions_transit _ _)
    · cases h

/-- What a command of the Epoch Timebase does to the messages in transit: it alone sends ticks. -/
theorem timebase_carried {c : Instr} {s t : State} (hc : blockOf c = .timebase) (h : exec c s = .next t) :
    Carried (takesOf c) (sendsOf .timebase) s.transit t.transit := by
  cases c <;> first | (cases hc; done) | skip
  case epochEnd =>
    simp only [exec, execEpochEnd, Host.Outcome.next.injEq] at h
    subst h
    refine whenRunning_carried s fun s => ?_
    unfold State.lastUnitPasses
    repeat' split
    · exact Sent.same rfl
    · refine (Sent.same rfl).then (Sent.send fun m hm => ?_)
      obtain ⟨k, -, rfl⟩ := List.mem_map.1 hm
      rfl
    · exact Sent.same rfl
  case setEpoch =>
    simp only [exec, execSetEpoch, Host.Outcome.next.injEq] at h
    subst h
    refine serve_carried s (fun _ _ => rfl) fun body s r s'' h => Sent.same ?_
    simp only [holderOnly, setEpochPeriod] at h
    repeat' split at h
    all_goals first | (cases h; done) | (cases h; rfl)

/-- What a command of any other block does to the messages in transit. -/
theorem others_carried {c : Instr} {s t : State} (h1 : blockOf c ≠ .reset) (h2 : blockOf c ≠ .plan)
    (h3 : blockOf c ≠ .mode) (h4 : blockOf c ≠ .ports) (h5 : blockOf c ≠ .conditions) (h6 : blockOf c ≠ .timebase)
    (h : exec c s = .next t) :
    Carried (takesOf c) Message.isOrdinary s.transit t.transit := by
  have hcom : ∀ c o s, Sent Message.isOrdinary s (State.commit c o s) := commit_sent
  have hrep : ∀ k s, Sent Message.isOrdinary s (State.report k s) := fun k s =>
    report_sent (b := .reads) k s (by decide) (by decide)
  have hline : ∀ n l s, Sent Message.isOrdinary s (State.changeLine n l s) := fun n l s =>
    (Sent.same (t := s.setLine n l) rfl).then (Sent.send (lineMessages_ordinary _ _ _))
  have htick : ∀ (c : Instr) x due s, (∀ n, takesOf c (.tick (.sequencer x) n) = true) →
      Carried (takesOf c) Message.isOrdinary s.transit (tickChannel x due s).transit :=
    fun c x due s hr => by
      unfold tickChannel
      split
      · exact takeTick_carried s hr fun n s => hcom _ _ _
      · exact Carried.same _
  have hres : ∀ (c : Instr) x q f s, (∀ w, takesOf c (.result x w) = true) →
      Carried (takesOf c) Message.isOrdinary s.transit (takeResult x q f s).transit :=
    fun c x q f s hr => by
      unfold takeResult
      split
      · rename_i heq
        split
        · have hk := take_key heq
          simp only [Message.isResult, decide_eq_true_eq] at hk
          subst hk
          exact carried_take heq (hr _) (hcom _ _ _)
        · exact Carried.same _
      · exact Carried.same _
  have hauth : ∀ (c : Instr) s, (∀ n, takesOf c (.tick .authority n) = true) →
      Carried (takesOf c) Message.isOrdinary s.transit
        (takeTick .authority (fun _ => State.authorityTick) s).transit := fun c s hr =>
    takeTick_carried s hr fun n s =>
      (Sent.same (t := { s with authority := s.authority.ticked }) rfl).then
        (Sent.send fun m hm => by obtain ⟨k, -, rfl⟩ := List.mem_map.1 hm; rfl)
  cases c <;> first
    | exact absurd rfl h1
    | exact absurd rfl h2
    | exact absurd rfl h3
    | exact absurd rfl h4
    | exact absurd rfl h5
    | exact absurd rfl h6
    | skip
  case sequencerTick | lockTimeout | blankingEnd | settlingExpiry =>
    simp only [exec, execSequencerTick, execLockTimeout, execBlankingEnd, execSettlingExpiry,
      Host.Outcome.next.injEq] at h
    subst h
    exact htick _ _ _ _ fun _ => rfl
  case rxResult | reflResult | fwdResult =>
    simp only [exec, execRxResult, execReflResult, execFwdResult, Host.Outcome.next.injEq] at h
    subst h
    exact hres _ _ _ _ _ fun _ => rfl
  case entryChange | siteStart | siteStop | tuneWriteCompletion =>
    simp only [exec, execEntryChange, execSiteStart, execSiteStop, execTuneWriteCompletion,
      Host.Outcome.next.injEq] at h
    subst h
    split
    · rename_i heq
      exact carried_take heq (by first | rfl | exact take_key heq) (hcom _ _ _)
    · exact Carried.same _
  case faultShutdown =>
    simp only [exec, execFaultShutdown, Host.Outcome.next.injEq] at h
    subst h
    split
    · rename_i m s' heq
      have hk := take_key heq
      refine carried_take heq ?_ (hcom _ _ _)
      cases m <;> first | rfl | cases hk
    · exact Carried.same _
  case lockLineChange =>
    simp only [exec, execLockLineChange, Host.Outcome.next.injEq] at h
    subst h
    refine whenRunning_carried s fun s => ?_
    split
    · exact Sent.same rfl
    · exact hcom _ _ _
  case restartChannel =>
    simp only [exec, execRestartChannel, Host.Outcome.next.injEq] at h
    subst h
    refine serve_carried s (fun _ _ => rfl) fun body s r s'' h => ?_
    simp only [holderOnly, restartChannel] at h
    repeat' split at h
    all_goals first | (cases h; done) | (cases h; first | exact hcom _ _ _ | exact Sent.same rfl)
  case authorityTick =>
    simp only [exec, execAuthorityTick, Host.Outcome.next.injEq] at h
    subst h
    exact hauth _ s fun _ => rfl
  case keepaliveLapse =>
    simp only [exec, execKeepaliveLapse, Host.Outcome.next.injEq] at h
    subst h
    split
    · exact hauth _ s fun _ => rfl
    · exact Carried.same _
  case claim | reserve | release | keepalive =>
    simp only [exec, execClaim, execReserve, execRelease, execKeepalive, Host.Outcome.next.injEq] at h
    subst h
    refine serveOnly_carried s (fun _ _ => rfl) fun s => ?_
    simp only [claimAuthority, reserveAuthority, releaseAuthority, keepAuthority, State.stand]
    repeat' split
    all_goals first
      | exact Sent.same rfl
      | exact (Sent.same rfl).then (hrep _ _)
  case startUpLoadEnd read =>
    simp only [exec, execStartUpLoadEnd, State.endLoad, Host.Outcome.next.injEq] at h
    subst h
    repeat' split
    · exact ((Sent.same rfl).then (hrep _ _)).carried
    all_goals exact Carried.same _
  case programmingCompletion | eraseCompletion =>
    simp only [exec, execProgrammingCompletion, execEraseCompletion, State.completeProgramming, State.completeErase,
      Host.Outcome.next.injEq] at h
    subst h
    repeat' split
    all_goals first
      | exact ((Sent.same rfl).then (hrep _ _)).carried
      | exact Carried.same _
  case sequencerParametersInitialize | levelMonitorInitialize =>
    simp only [exec, execSequencerParametersInitialize, execLevelMonitorInitialize, Host.Outcome.next.injEq] at h
    subst h
    exact takeInitNotice_carried s rfl rfl fun s => Sent.same rfl
  case faultLineInitialize =>
    simp only [exec, execFaultLineInitialize, Host.Outcome.next.injEq] at h
    subst h
    refine takeInitNotice_carried s rfl rfl fun s => ?_
    refine (Sent.same rfl).then (Sent.send fun m hm => ?_)
    obtain ⟨n, -, hm⟩ := List.mem_flatMap.1 hm
    exact lineMessages_ordinary _ _ _ _ hm
  case writeDemand =>
    simp only [exec, execWriteDemand, Host.Outcome.next.injEq] at h
    subst h
    split
    · rename_i heq
      split
      · exact carried_take heq rfl (Sent.same rfl)
      · exact Carried.same _
    · exact Carried.same _
  case linkWriteComplete =>
    simp only [exec, execLinkWriteComplete, Host.Outcome.next.injEq] at h
    subst h
    split
    · exact ((Sent.same rfl).then (Sent.send (by simp [Message.isOrdinary]))).carried
    · exact Carried.same _
  case sampleArrival =>
    simp only [exec, execSampleArrival, Host.Outcome.next.injEq] at h
    subst h
    have hoff : ∀ w s, Sent Message.isOrdinary s (State.offer w s) := fun w s => by
      unfold State.offer
      split
      · exact (Sent.same rfl).then (Sent.send fun m hm => by obtain ⟨k, -, rfl⟩ := List.mem_map.1 hm; rfl)
      · exact Sent.same rfl
    have hwin : ∀ w s, Sent Message.isOrdinary s (State.completeWindow w s) := fun w s => by
      refine ((Sent.same rfl).then (Sent.send fun m hm => ?_)).then (hoff _ _)
      obtain ⟨k, -, rfl⟩ := List.mem_map.1 hm
      rfl
    refine whenRunning_carried s fun s => (Sent.same (t := s.wordEnded) rfl).then ?_
    simp only [State.takeSample, State.judgeSample, State.addLevel]
    repeat' split
    all_goals first
      | exact hrep _ _
      | exact hwin _ _
      | exact Sent.same rfl
  case offNotice =>
    simp only [exec, execOffNotice, Host.Outcome.next.injEq] at h
    subst h
    split
    · rename_i m s' heq
      have hk := take_key heq
      refine carried_take heq ?_ (Sent.same rfl)
      cases m <;> first | rfl | cases hk
    · exact Carried.same _
  case faultPinChange =>
    simp only [exec, execFaultPinChange, Host.Outcome.next.injEq] at h
    subst h
    exact whenRunning_carried s fun s => Sent.same rfl
  case filterIntervalEnd =>
    simp only [exec, execFilterIntervalEnd, Host.Outcome.next.injEq] at h
    subst h
    refine whenRunning_carried s fun s => ?_
    split
    · exact hline _ _ _
    · exact Sent.same rfl
  case configureLine =>
    simp only [exec, execConfigureLine, Host.Outcome.next.injEq] at h
    subst h
    refine configureItem_carried s (fun _ _ => rfl) fun v s => holderOnly_sent s fun s => ?_
    unfold setLineConfig
    repeat' split
    all_goals first | exact hline _ _ _ | exact Sent.same rfl
  case flushReports =>
    simp only [exec, execFlushReports, Host.Outcome.next.injEq] at h
    subst h
    exact serveOnly_carried s (fun _ _ => rfl) fun s => holderOnly_sent s fun s => Sent.same rfl
  case licenceEntry | licenceCommit | licenceErase | readReports | readEntry | readChannel | readLicence =>
    simp only [exec, execLicenceEntry, execLicenceCommit, execLicenceErase, execReadReports, execReadEntry,
      execReadChannel, execReadLicence, Host.Outcome.next.injEq] at h
    subst h
    refine serve_carried s (fun _ _ => rfl) fun body s r s'' h => Sent.same ?_
    try
      simp only [licensing, holderOnly, licenceEntry, licenceCommit, licenceErase, writeWorking, readReports] at h
    repeat' split at h
    all_goals first | (cases h; done) | (cases h; rfl)
  all_goals
    simp only [exec, execConfigureEpochPeriod, execConfigureLatestResult, execConfigureAttention,
      execReadConfigApplyMode, execReadConfigRaster, execReadConfigKeepaliveLimit, execReadConfigTuneLimit,
      execReadConfigSettleEpochs, execReadConfigFoldbackStep, execReadConfigRecoverWindows, execReadConfigReflLimit,
      execReadConfigCarrierFloor, execReadConfigWindowLength, execReadConfigSampleFormat, execReadConfigReportSelect,
      execReadConfigReportThreshold, execReadConfigLine, execReadConfigEpochPeriod, execReadConfigLatestResult,
      execReadConfigAttention, execConfigureTuneLimit, execConfigureSettleEpochs, execConfigureFoldbackStep,
      execConfigureRecoverWindows, execConfigureReflLimit, execConfigureCarrierFloor, execConfigureWindowLength,
      execConfigureSampleFormat, execConfigureReportSelect, execConfigureReportThreshold,
      execConfigureKeepaliveLimit, configureParams, Host.Outcome.next.injEq] at h
    subst h
    first
      | exact readItem_carried s fun _ _ => rfl
      | (refine configureItem_carried s (fun _ _ => rfl) fun v s => holderOnly_sent s fun s => Sent.same ?_
         simp only [setParams, setMeasurement, setReportSelect, setReportThreshold, setKeepaliveLimit]
         repeat' split
         all_goals rfl)

end Sys2Proof.Machine
end

