-- ==== Sys2Proof/Laws/Step.lean ====
section
/-!
SUPPORT. What a step can be: the command at the front of the queue, or, on an empty queue, the passing of one unit.
-/

namespace Sys2Proof.Machine

/-- Every command answers a next state. -/
theorem exec_next (c : Instr) (s : State) : ∃ t, exec c s = .next t := by cases c <;> exact ⟨_, rfl⟩

/-- What an empty queue lets happen: nothing, a count of the position below the period, or what EPOCH_END does. -/
theorem idle_cases (s : State) :
    s.idle = s
      ∨ s.timebase.position + 1 < s.timebase.prescale * s.timebase.modulo
        ∧ s.idle = { s with timebase := { s.timebase with position := s.timebase.position + 1 } }
      ∨ exec .epochEnd s = .next s.idle := by
  unfold State.idle
  by_cases hr : s.phase = .running
  · rw [whenRunning_of hr]
    by_cases hp : s.timebase.position + 1 < s.timebase.prescale * s.timebase.modulo
    · exact Or.inr (Or.inl ⟨hp, by simp [State.unitPasses, Timebase.period, hp]⟩)
    · exact Or.inr (Or.inr (by
        simp [State.unitPasses, Timebase.period, hp, Nat.le_of_not_lt hp, exec, execEpochEnd, whenRunning_of hr]))
  · exact Or.inl (whenRunning_not hr)

/-- A property that no command, no change of the queue and no count of the position breaks is kept by every step. -/
theorem step_keeps {P : State → Prop} {s t : State} (hq : ∀ s cs, P s → P { s with pending := cs })
    (hp : ∀ s : State, P s → s.timebase.position + 1 < s.timebase.prescale * s.timebase.modulo →
      P { s with timebase := { s.timebase with position := s.timebase.position + 1 } })
    (he : ∀ c s t, P s → exec c s = .next t → P t) (hs : P s) (h : step s = .next t) : P t := by
  unfold step at h
  split at h
  · simp only [Host.Outcome.next.injEq] at h
    subst h
    rcases idle_cases s with hi | ⟨hlt, hi⟩ | hi
    · rw [hi]
      exact hs
    · rw [hi]
      exact hp s hs hlt
    · exact he _ _ _ hs hi
  · exact he _ _ _ (hq _ _ hs) h

/-- The commands of a reset. -/
theorem block_reset {c : Instr} (h : blockOf c = .reset) :
    c = .hardwareReset ∨ c = .lossOfSupply ∨ ∃ pins, c = .endOfHardwareReset pins := by
  cases c <;> first | (cases h; done) | simp

/-- A projection that neither messages nor responses change, nor the state of any block but those named, is changed by
the commands of those blocks alone. -/
theorem other_quiet {α : Type} {F : State → α} (hF : Quiet F) {c : Instr} {s t : State} (h : exec c s = .next t)
    (hr : blockOf c ≠ .reset)
    (hplan : blockOf c = .plan → ∀ (s : State) k, F { s with plan := k } = F s)
    (hlicence : blockOf c = .licence → ∀ (s : State) k, F { s with licence := k } = F s)
    (htimebase : blockOf c = .timebase → ∀ (s : State) k, F { s with timebase := k } = F s)
    (hparams : blockOf c = .params → ∀ (s : State) k, F { s with params := k } = F s)
    (hchannels : blockOf c = .channels → ∀ (s : State) k, F { s with channels := k } = F s)
    (hlink : blockOf c = .link → ∀ (s : State) k, F { s with link := k } = F s)
    (hlevel : blockOf c = .level → ∀ (s : State) k, F { s with level := k } = F s)
    (hauthority : blockOf c = .authority → ∀ (s : State) k, F { s with authority := k } = F s)
    (hmode : blockOf c = .mode → ∀ (s : State) k, F { s with mode := k } = F s)
    (hlines : blockOf c = .lines → ∀ (s : State) k, F { s with lines := k } = F s)
    (hconditions : blockOf c = .conditions → ∀ (s : State) k, F { s with conditions := k } = F s) : F t = F s := by
  cases hb : blockOf c
  · exact absurd hb hr
  · exact ports_quiet hF hb h
  · exact reads_quiet hF hb h
  · exact plan_quiet hF (hplan hb) hb h
  · exact licence_quiet hF (hlicence hb) hb h
  · exact timebase_quiet hF (htimebase hb) hb h
  · exact params_quiet hF (hparams hb) hb h
  · exact channels_quiet hF (hchannels hb) hb h
  · exact link_quiet hF (hlink hb) hb h
  · exact level_quiet hF (hlevel hb) hb h
  · exact authority_quiet hF (hauthority hb) hb h
  · exact mode_quiet hF (hmode hb) hb h
  · exact lines_quiet hF (hlines hb) hb h
  · exact conditions_quiet hF (hconditions hb) hb h

theorem authority_other {c : Instr} {s t : State} (h : exec c s = .next t) (hr : blockOf c ≠ .reset)
    (hb : blockOf c ≠ .authority) : t.authority = s.authority := by
  refine other_quiet (F := State.authority) ⟨fun _ _ => rfl, fun _ _ => rfl⟩ h hr ?_ ?_ ?_ ?_ ?_ ?_ ?_ ?_ ?_ ?_ ?_
  all_goals first | exact fun _ _ _ => rfl | exact fun h => absurd h hb

theorem params_other {c : Instr} {s t : State} (h : exec c s = .next t) (hr : blockOf c ≠ .reset)
    (hb : blockOf c ≠ .params) : t.params = s.params := by
  refine other_quiet (F := State.params) ⟨fun _ _ => rfl, fun _ _ => rfl⟩ h hr ?_ ?_ ?_ ?_ ?_ ?_ ?_ ?_ ?_ ?_ ?_
  all_goals first | exact fun _ _ _ => rfl | exact fun h => absurd h hb

theorem channels_other {c : Instr} {s t : State} (h : exec c s = .next t) (hr : blockOf c ≠ .reset)
    (hb : blockOf c ≠ .channels) : t.channels = s.channels := by
  refine other_quiet (F := State.channels) ⟨fun _ _ => rfl, fun _ _ => rfl⟩ h hr ?_ ?_ ?_ ?_ ?_ ?_ ?_ ?_ ?_ ?_ ?_
  all_goals first | exact fun _ _ _ => rfl | exact fun h => absurd h hb

theorem plan_other {c : Instr} {s t : State} (h : exec c s = .next t) (hr : blockOf c ≠ .reset)
    (hb : blockOf c ≠ .plan) : t.plan = s.plan := by
  refine other_quiet (F := State.plan) ⟨fun _ _ => rfl, fun _ _ => rfl⟩ h hr ?_ ?_ ?_ ?_ ?_ ?_ ?_ ?_ ?_ ?_ ?_
  all_goals first | exact fun _ _ _ => rfl | exact fun h => absurd h hb

theorem licence_other {c : Instr} {s t : State} (h : exec c s = .next t) (hr : blockOf c ≠ .reset)
    (hb : blockOf c ≠ .licence) : t.licence = s.licence := by
  refine other_quiet (F := State.licence) ⟨fun _ _ => rfl, fun _ _ => rfl⟩ h hr ?_ ?_ ?_ ?_ ?_ ?_ ?_ ?_ ?_ ?_ ?_
  all_goals first | exact fun _ _ _ => rfl | exact fun h => absurd h hb

theorem timebase_other {c : Instr} {s t : State} (h : exec c s = .next t) (hr : blockOf c ≠ .reset)
    (hb : blockOf c ≠ .timebase) : t.timebase = s.timebase := by
  refine other_quiet (F := State.timebase) ⟨fun _ _ => rfl, fun _ _ => rfl⟩ h hr ?_ ?_ ?_ ?_ ?_ ?_ ?_ ?_ ?_ ?_ ?_
  all_goals first | exact fun _ _ _ => rfl | exact fun h => absurd h hb

theorem link_other {c : Instr} {s t : State} (h : exec c s = .next t) (hr : blockOf c ≠ .reset)
    (hb : blockOf c ≠ .link) : t.link = s.link := by
  refine other_quiet (F := State.link) ⟨fun _ _ => rfl, fun _ _ => rfl⟩ h hr ?_ ?_ ?_ ?_ ?_ ?_ ?_ ?_ ?_ ?_ ?_
  all_goals first | exact fun _ _ _ => rfl | exact fun h => absurd h hb

theorem level_other {c : Instr} {s t : State} (h : exec c s = .next t) (hr : blockOf c ≠ .reset)
    (hb : blockOf c ≠ .level) : t.level = s.level := by
  refine other_quiet (F := State.level) ⟨fun _ _ => rfl, fun _ _ => rfl⟩ h hr ?_ ?_ ?_ ?_ ?_ ?_ ?_ ?_ ?_ ?_ ?_
  all_goals first | exact fun _ _ _ => rfl | exact fun h => absurd h hb

theorem mode_other {c : Instr} {s t : State} (h : exec c s = .next t) (hr : blockOf c ≠ .reset)
    (hb : blockOf c ≠ .mode) : t.mode = s.mode := by
  refine other_quiet (F := State.mode) ⟨fun _ _ => rfl, fun _ _ => rfl⟩ h hr ?_ ?_ ?_ ?_ ?_ ?_ ?_ ?_ ?_ ?_ ?_
  all_goals first | exact fun _ _ _ => rfl | exact fun h => absurd h hb

theorem lines_other {c : Instr} {s t : State} (h : exec c s = .next t) (hr : blockOf c ≠ .reset)
    (hb : blockOf c ≠ .lines) : t.lines = s.lines := by
  refine other_quiet (F := State.lines) ⟨fun _ _ => rfl, fun _ _ => rfl⟩ h hr ?_ ?_ ?_ ?_ ?_ ?_ ?_ ?_ ?_ ?_ ?_
  all_goals first | exact fun _ _ _ => rfl | exact fun h => absurd h hb

theorem conditions_other {c : Instr} {s t : State} (h : exec c s = .next t) (hr : blockOf c ≠ .reset)
    (hb : blockOf c ≠ .conditions) : t.conditions = s.conditions := by
  refine other_quiet (F := State.conditions) ⟨fun _ _ => rfl, fun _ _ => rfl⟩ h hr ?_ ?_ ?_ ?_ ?_ ?_ ?_ ?_ ?_ ?_ ?_
  all_goals first | exact fun _ _ _ => rfl | exact fun h => absurd h hb

theorem phase_other {c : Instr} {s t : State} (h : exec c s = .next t) (hr : blockOf c ≠ .reset) :
    t.phase = s.phase := by
  refine other_quiet (F := State.phase) ⟨fun _ _ => rfl, fun _ _ => rfl⟩ h hr ?_ ?_ ?_ ?_ ?_ ?_ ?_ ?_ ?_ ?_ ?_
  all_goals exact fun _ _ _ => rfl

/-- No command touches the queue of waiting commands. -/
theorem pending_kept {c : Instr} {s t : State} (h : exec c s = .next t) : t.pending = s.pending := by
  by_cases hr : blockOf c = .reset
  · rcases block_reset hr with rfl | rfl | ⟨pins, rfl⟩
    · cases h
      rfl
    · cases h
      rfl
    · simp only [exec, execEndOfHardwareReset, Host.Outcome.next.injEq] at h
      subst h
      split <;> rfl
  · refine other_quiet (F := State.pending) ⟨fun _ _ => rfl, fun _ _ => rfl⟩ h hr ?_ ?_ ?_ ?_ ?_ ?_ ?_ ?_ ?_ ?_ ?_
    all_goals exact fun _ _ _ => rfl

/-- What a command outside the plan, mode and port blocks and the resets does to the messages in transit. -/
theorem ordinary_carried {c : Instr} {s t : State} (h1 : blockOf c ≠ .reset) (h2 : blockOf c ≠ .plan)
    (h3 : blockOf c ≠ .mode) (h4 : blockOf c ≠ .ports) (h : exec c s = .next t) :
    Carried (takesOf c) (fun m => m.isOrdinary || m.isAnyTick) s.transit t.transit := by
  by_cases h5 : blockOf c = .conditions
  · exact (conditions_carried h5 h).mono fun m hm => by simp [hm]
  by_cases h6 : blockOf c = .timebase
  · exact (timebase_carried h6 h).mono fun m hm => Bool.or_eq_true_iff.2 (Or.inr hm)
  · exact (others_carried h1 h2 h3 h4 h5 h6 h).mono fun m hm => by simp [hm]

/-- The standby notices stay under way until STANDBY_NOTICE takes one, a reset apart. -/
theorem standbyNotices_le {c : Instr} {s t : State} (hr : blockOf c ≠ .reset) (hc : c ≠ .standbyNotice)
    (h : exec c s = .next t) : s.standbyNotices ≤ t.standbyNotices := by
  have ht : takesOf c .standbyNotice = false := by cases c <;> first | rfl | exact absurd rfl hc
  by_cases h1 : blockOf c = .plan
  · exact (plan_carried h1 h).count_le ht
  by_cases h2 : blockOf c = .mode
  · exact (mode_carried h2 h).count_le ht
  by_cases h3 : blockOf c = .ports
  · exact (ports_sent h3 h).carried (takes := fun _ => false) |>.count_le rfl
  · exact (ordinary_carried hr h1 h2 h3 h).count_le ht

/-- A tick in transit was sent by the Epoch Timebase: no other block's command adds one. -/
theorem tick_kept {c : Instr} {s t : State} {k : TickConsumer} {n : Word16} (h1 : blockOf c ≠ .reset)
    (h2 : blockOf c ≠ .timebase) (h : exec c s = .next t) (hm : Message.tick k n ∈ t.transit) :
    Message.tick k n ∈ s.transit := by
  by_cases h3 : blockOf c = .plan
  · exact ((plan_carried h3 h).mem hm).resolve_right Bool.noConfusion
  by_cases h4 : blockOf c = .mode
  · exact ((mode_carried h4 h).mem hm).resolve_right Bool.noConfusion
  by_cases h5 : blockOf c = .ports
  · exact ((ports_sent h5 h).carried (takes := fun _ => true) |>.mem hm).resolve_right Bool.noConfusion
  by_cases h6 : blockOf c = .conditions
  · exact ((conditions_carried h6 h).mem hm).resolve_right Bool.noConfusion
  · exact ((others_carried h1 h3 h4 h5 h6 h2 h).mem hm).resolve_right Bool.noConfusion

/-- While the start-up load runs the Epoch Timebase sends no tick. -/
theorem tick_not_loading {c : Instr} {s t : State} (hl : s.licence.loading = true) (h1 : blockOf c ≠ .reset)
    (h : exec c s = .next t) {k : TickConsumer} {n : Word16} (hm : Message.tick k n ∈ t.transit) :
    Message.tick k n ∈ s.transit := by
  by_cases h2 : blockOf c = .timebase
  swap
  · exact tick_kept h1 h2 h hm
  cases c <;> first | (cases h2; done) | skip
  case epochEnd =>
    have : t = s := by
      simp only [exec, execEpochEnd, State.lastUnitPasses, hl, if_true, ite_self, whenRunning,
        Host.Outcome.next.injEq] at h
      exact h.symm
    exact this ▸ hm
  case setEpoch p =>
    simp only [exec, execSetEpoch, Host.Outcome.next.injEq] at h
    subst h
    rcases serve_cases .timebase p _ s with h | ⟨tag, body, ms, r, s'', -, hp, hf, h⟩
    · exact h ▸ hm
    · rw [h, answer_transit] at hm
      have : s''.transit = ms := by
        simp only [holderOnly, setEpochPeriod] at hf
        repeat' split at hf
        all_goals first | (cases hf; done) | (cases hf; rfl)
      exact mem_of_pull hp (this ▸ hm)

end Sys2Proof.Machine
end

