-- ==== Sys2Proof/Laws/Sequencer.lean ====
section
/-!
SUPPORT. The sequencers: what the end of an event does once the record's gain demand is formed, and that every event
leaves a lawful record.
-/

namespace Sys2Proof.Machine

/-! ## The end of an event -/

/-- With the demanded word of the old record kept by the event and equal to the old gain word, a gain demand is due
exactly where the word changes. -/
theorem gainDue_iff {old r : Channel} (hl : old.demandedGain = old.gain - old.fold)
    (hk : r.demandedGain = old.demandedGain) : gainDue old r = true ↔ r.gain - r.fold ≠ old.demandedGain := by
  simp only [gainDue, Channel.gainWord, Bool.and_eq_true, Bool.or_eq_true, decide_eq_true_eq, hk]
  constructor
  · exact fun h => h.2
  · intro h
    refine ⟨?_, h⟩
    by_contra hc
    push Not at hc
    rw [hl, hc.1, hc.2] at h
    exact h rfl

theorem final_eq {old : Channel} {o : SeqOutcome} (hl : old.demandedGain = old.gain - old.fold)
    (hk : o.record.demandedGain = old.demandedGain) :
    o.final old = { o.record with demandedGain := o.record.gain - o.record.fold } := by
  unfold SeqOutcome.final
  split
  · rfl
  · rename_i h
    rw [gainDue_iff hl hk, not_not] at h
    rw [h, ← hk]

theorem writes_eq {c : Chan} {old : Channel} {o : SeqOutcome} (hl : old.demandedGain = old.gain - old.fold)
    (hk : o.record.demandedGain = old.demandedGain) :
    o.writes c old =
      (if o.record.gain - o.record.fold = old.demandedGain then []
        else [⟨⟨c, .gain⟩, o.record.gain - o.record.fold⟩])
      ++ (if o.retunes then tuneDemands c o.record.demandedRx o.record.demandedTx else []) := by
  unfold SeqOutcome.writes tuneDemands
  congr 1
  by_cases h : o.record.gain - o.record.fold = old.demandedGain
  · have : ¬ gainDue old o.record = true := by rw [gainDue_iff hl hk]; exact fun h' => h' h
    rw [if_neg this, if_pos h]
  · rw [if_pos ((gainDue_iff hl hk).2 h), if_neg h]
    rfl

/-- The end of an event at a lawful record, in the words of the statements. -/
theorem commit_eq {c : Chan} {o : SeqOutcome} {s : State} (hl : (s.channels.get c).Lawful)
    (hk : o.record.demandedGain = (s.channels.get c).demandedGain) :
    s.commit c o = s.afterEvent c o.record
      (if o.retunes then tuneDemands c o.record.demandedRx o.record.demandedTx else [])
      ((if o.wentOff then [.offNotice c] else []) ++ o.reported.map fun k => .occurrence (k.slot c)) := by
  unfold State.commit State.afterEvent
  rw [final_eq hl.demanded hk]
  simp only [SeqOutcome.messages, writes_eq hl.demanded hk, List.isEmpty_iff, State.send, State.setChannel,
    List.append_assoc]

/-- An event that leaves the record as it is and sends nothing changes nothing. -/
theorem put_self {α : Type} {n : Nat} (v : Vector α n) (i : Fin n) : put v i (v.get i) = v := by
  apply ext_get
  intro j
  rw [put_get]
  split
  · rename_i h
    rw [h]
  · rfl

theorem commit_same {c : Chan} {s : State} (hl : (s.channels.get c).Lawful) :
    s.commit c (s.channels.get c).only = s := by
  rw [commit_eq hl rfl]
  simp [State.afterEvent, Channel.only, ← hl.demanded]
  change { s with channels := put s.channels c (s.channels.get c) } = s
  rw [put_self]

/-! ## Every event keeps the demanded word -/

/-- The outcome of an event has the demanded gain word of the record it started from. -/
def SeqOutcome.Keeps (o : SeqOutcome) (r : Channel) : Prop := o.record.demandedGain = r.demandedGain

theorem tick_keeps (p : SequencerParams) (r : Channel) : (r.tick p).Keeps r := by
  unfold SeqOutcome.Keeps Channel.tick Channel.tickTuning Channel.tickSettling Channel.endBlanking
    Channel.expireSettling Channel.enterSettling Channel.expireSettling
  repeat' split
  all_goals rfl

theorem lockChanged_keeps (p : SequencerParams) (b : Bool) (r : Channel) : (r.lockChanged p b).Keeps r := by
  unfold SeqOutcome.Keeps Channel.lockChanged Channel.enterSettling Channel.expireSettling
  repeat' split
  all_goals rfl

theorem governingRx_keeps (r : Channel) (m : Int) : (r.governingRx m).Keeps r := by
  unfold SeqOutcome.Keeps Channel.governingRx
  repeat' split
  all_goals rfl

theorem reflected_keeps (p : SequencerParams) (r : Channel) (m : Int) : (r.reflected p m).Keeps r := by
  unfold SeqOutcome.Keeps Channel.reflected Channel.foldMore Channel.recover
  repeat' split
  all_goals rfl

theorem entryChanged_keeps (raster : Nat) (op : Bool) (r : Channel) (e : PlanEntry) :
    (r.entryChanged raster op e).Keeps r := by
  unfold SeqOutcome.Keeps Channel.entryChanged Channel.sameFrequencyChange
  repeat' split
  all_goals rfl

/-! ## Every event leaves a lawful record -/

/-- The record with its gain demand formed. -/
def Channel.settled (r : Channel) : Channel := { r with demandedGain := r.gain - r.fold }


theorem enterTuning_lawful {r : Channel} (raster : Nat) (hs : r.entry.service = .inService) :
    (r.enterTuning raster).record.settled.Lawful := by
  constructor <;> simp [Channel.enterTuning, Channel.settled, Channel.cleared, hs]

theorem enterOff_lawful (r : Channel) : r.enterOff.record.settled.Lawful := by
  constructor <;> simp [Channel.enterOff, Channel.settled, Channel.cleared, ChannelState.carrier]

theorem enterShutdown_lawful {r : Channel} (hs : r.entry.service = .inService) :
    r.enterShutdown.record.settled.Lawful := by
  constructor <;> simp [Channel.enterShutdown, Channel.only, Channel.settled, Channel.cleared, ChannelState.carrier, hs]

theorem inService_of {r : Channel} (h : r.Lawful) (hs : r.state ≠ .off) : r.entry.service = .inService := by
  cases he : r.entry.service
  · exact absurd (h.outOfServiceOff he) hs
  · rfl

theorem settled_self {r : Channel} (h : r.Lawful) : r.settled = r := by
  unfold Channel.settled
  rw [← h.demanded]

theorem loseLock_lawful {r : Channel} (hs : r.entry.service = .inService) : r.loseLock.record.settled.Lawful := by
  constructor <;>
    simp [Channel.loseLock, SeqOutcome.reporting, Channel.only, Channel.settled, Channel.cleared, ChannelState.carrier, hs]

theorem enterOnAir_lawful {r : Channel} (hs : r.entry.service = .inService) (hf : r.fold = 0)
    (hp : r.subPhase = none ∧ r.tuneCount = 0 ∧ r.blankingCount = 0 ∧ r.rxWritten = false ∧ r.txWritten = false) :
    r.enterOnAir.record.settled.Lawful := by
  obtain ⟨h1, h2, h3, h4, h5⟩ := hp
  constructor <;>
    simp [Channel.enterOnAir, Channel.only, Channel.settled, ChannelState.carrier, hs, hf, h1, h2, h3, h4, h5]

theorem enterSquelched_lawful {r : Channel} (hs : r.entry.service = .inService)
    (hp : r.subPhase = none ∧ r.tuneCount = 0 ∧ r.blankingCount = 0 ∧ r.rxWritten = false ∧ r.txWritten = false) :
    r.enterSquelched.record.settled.Lawful := by
  obtain ⟨h1, h2, h3, h4, h5⟩ := hp
  constructor <;>
    simp [Channel.enterSquelched, Channel.only, SeqOutcome.reporting, Channel.settled, hs, h1, h2, h3, h4, h5]

theorem expireSettling_lawful {r : Channel} (hs : r.entry.service = .inService) (hf : r.fold = 0)
    (hp : r.subPhase = none ∧ r.tuneCount = 0 ∧ r.blankingCount = 0 ∧ r.rxWritten = false ∧ r.txWritten = false) :
    r.expireSettling.record.settled.Lawful := by
  unfold Channel.expireSettling
  split
  · exact enterOnAir_lawful hs hf hp
  · exact enterSquelched_lawful hs hp

theorem enterSettling_lawful {r : Channel} (n : Nat) (hs : r.entry.service = .inService) (hf : r.fold = 0)
    (hg : r.gain = 0) (hb : r.belowCount = 0) (hr : r.recoverCount = 0) :
    (r.enterSettling n).record.settled.Lawful := by
  unfold Channel.enterSettling
  split
  · exact expireSettling_lawful hs hf (by simp [Channel.settlingRecord])
  · constructor <;> simp [Channel.only, Channel.settlingRecord, Channel.settled, hs, hf, hg, hb, hr]

/-- What a lawful record holds in TUNING. -/
theorem tuning_holds {r : Channel} (h : r.Lawful) (hs : r.state = .tuning) :
    r.settleCount = 0 ∧ r.freshRx = false ∧ r.settlingMean = none ∧ r.gain = 0 ∧ r.fold = 0 ∧ r.recoverCount = 0
      ∧ r.belowCount = 0 := by
  have h1 := h.outsideSettling (by simp [hs])
  have h2 := h.meanIffFresh
  have h3 := h.noGain (by simp [hs])
  have h4 := h.foldIff
  have h5 := h.outsideFoldback (by simp [hs])
  have h6 := h.offAir (by simp [hs, ChannelState.carrier])
  simp only [hs, reduceCtorEq, iff_false, not_lt, Nat.le_zero_eq] at h4
  rw [h1.2] at h2
  exact ⟨h1.1, h1.2, by simpa using h2, h3, h4, h5, h6⟩

/-- A record in TUNING with other counts in range is lawful. -/
theorem tuning_lawful {r : Channel} (h : r.Lawful) (hs : r.state = .tuning) {n b : Nat} {x : Option SubPhase}
    {rx tx : Bool} (hn : n ≤ 254) (hb : b ≤ 2) (hx : x.isSome = true) (hbl : x = some .blanking → b ≤ 1)
    (hw : x = some .writing → ¬ (rx = true ∧ tx = true)) :
    ({ r with subPhase := x, tuneCount := n, blankingCount := b, rxWritten := rx, txWritten := tx } :
      Channel).settled.Lawful := by
  obtain ⟨h1, h2, h3, h4, h5, h6, h7⟩ := tuning_holds h hs
  have hi := inService_of h (by simp [hs])
  constructor <;> simp [Channel.settled, hs, h1, h2, h3, h4, h5, h6, h7, hi, hn, hb, hx]
  · exact hbl
  · simpa using hw

/-- On air another gain leaves the record lawful. -/
theorem gain_lawful {r : Channel} (h : r.Lawful) (hs : r.state = .onAir ∨ r.state = .foldback) (g : Nat) :
    ({ r with gain := g } : Channel).settled.Lawful := by
  refine ⟨h.1, h.2, h.3, h.4, h.5, h.6, ?_, h.8, h.9, h.10, h.11, rfl, h.13, h.14⟩
  rcases hs with hs | hs <;> simp [Channel.settled, hs]

theorem rampGain_lawful {r : Channel} (h : r.Lawful) (hs : r.state = .onAir ∨ r.state = .foldback) :
    (Channel.only { r with gain := r.rampGain }).record.settled.Lawful := gain_lawful h hs _

/-- On air another below-count leaves the record lawful. -/
theorem below_lawful {r : Channel} (h : r.Lawful) (hs : r.state = .onAir ∨ r.state = .foldback) (n : Nat) :
    (Channel.only { r with belowCount := n }).record.settled.Lawful := by
  refine ⟨h.1, h.2, h.3, h.4, h.5, h.6, h.7, h.8, h.9, h.10, ?_, rfl, h.13, h.14⟩
  rcases hs with hs | hs <;> simp [Channel.only, Channel.settled, hs, ChannelState.carrier]

theorem tick_lawful {p : SequencerParams} {r : Channel} (hp : p.Lawful) (h : r.Lawful) :
    (r.tick p).record.settled.Lawful := by
  have hl := hp.tuneLimit
  have he := hp.settleEpochs
  unfold Channel.tick
  split
  · exact (settled_self h).symm ▸ h
  · exact (settled_self h).symm ▸ h
  · exact (settled_self h).symm ▸ h
  · rename_i hs
    have hi := inService_of h (by simp [hs])
    have ht := tuning_holds h hs
    have hin := h.inTuning hs
    unfold Channel.tickTuning
    split
    · exact enterShutdown_lawful hi
    · rename_i hto
      simp only [Channel.timesOut, hs, decide_true, Bool.true_and, decide_eq_true_eq, not_le] at hto
      split
      · rename_i hbl
        split
        · unfold Channel.endBlanking
          split
          · exact enterSettling_lawful _ hi ht.2.2.2.2.1 ht.2.2.2.1 ht.2.2.2.2.2.2 ht.2.2.2.2.2.1
          · have := h.blanking hbl
            exact tuning_lawful (n := r.tuneCount + 1) (b := r.blankingCount + 1) h hs (by omega) (by omega) rfl
              (by simp) (by simp)
        · rename_i heb
          have := h.blanking hbl
          simp [Channel.endsBlanking, Channel.timesOut, hs, hbl, hto, Config.blankingTicks] at heb
          exact tuning_lawful (n := r.tuneCount + 1) (b := r.blankingCount + 1) (x := r.subPhase) h hs (by omega)
            (by omega) hin.1 (fun _ => by omega) (by simp [hbl])
      · rename_i hnb
        exact tuning_lawful (x := r.subPhase) (b := r.blankingCount) h hs (by omega) hin.2.2 hin.1
          (fun hx => absurd hx hnb) h.writing
  · rename_i hs
    have hi := inService_of h (by simp [hs])
    have hout := h.outsideTuning (by simp [hs])
    have hf : r.fold = 0 := by
      have := h.foldIff
      simp only [hs, reduceCtorEq, iff_false, not_lt, Nat.le_zero_eq] at this
      exact this
    unfold Channel.tickSettling
    split
    · exact expireSettling_lawful hi hf hout
    · rename_i hes
      simp only [Channel.endsSettling, hs, decide_true, Bool.true_and, decide_eq_true_eq, not_le] at hes
      obtain ⟨h1, h2, h3, h4, h5⟩ := hout
      have h6 := h.noGain (by simp [hs])
      have h7 := h.outsideFoldback (by simp [hs])
      have h8 := h.offAir (by simp [hs, ChannelState.carrier])
      have h9 := h.meanIffFresh
      constructor <;> simp [Channel.only, Channel.settled, hs, hi, hf, h1, h2, h3, h4, h5, h6, h7, h8, h9]
      omega
  · rename_i hs
    exact rampGain_lawful h (Or.inl hs)
  · rename_i hs
    exact rampGain_lawful h (Or.inr hs)

theorem setLock_lawful {r : Channel} (h : r.Lawful) (side : Side) (b : Bool) : (r.setLock side b).Lawful := by
  cases side <;> exact ⟨h.1, h.2, h.3, h.4, h.5, h.6, h.7, h.8, h.9, h.10, h.11, h.12, h.13, h.14⟩

theorem lockChanged_lawful {p : SequencerParams} {r : Channel} (h : r.Lawful) (b : Bool) :
    (r.lockChanged p b).record.settled.Lawful := by
  have same : r.only.record.settled.Lawful := (settled_self h).symm ▸ h
  unfold Channel.lockChanged
  split
  · exact same
  · exact same
  · rename_i hs
    have ht := tuning_holds h hs
    split
    · exact enterSettling_lawful _ (inService_of h (by simp [hs])) ht.2.2.2.2.1 ht.2.2.2.1 ht.2.2.2.2.2.2
        ht.2.2.2.2.2.1
    · exact same
  all_goals
    rename_i hs
    split
    · exact same
    · exact loseLock_lawful (inService_of h (by simp [hs]))

theorem completed_lawful {r : Channel} (h : r.Lawful) (d : Device) (v : Nat) : (r.completed d v).settled.Lawful := by
  unfold Channel.completed
  split
  · rename_i hs
    obtain ⟨hs, hw⟩ := hs
    have hin := h.inTuning hs
    have hb : r.markWritten d v = { r with rxWritten := (r.markWritten d v).rxWritten, txWritten := (r.markWritten d v).txWritten } := by
      unfold Channel.markWritten
      repeat' split
      all_goals rfl
    rw [hb]
    split
    · exact tuning_lawful (n := r.tuneCount) h hs hin.2.1 (by simp) rfl (by simp) (by simp)
    · rename_i hn
      refine tuning_lawful (n := r.tuneCount) (x := r.subPhase) h hs hin.2.1 hin.2.2 hin.1 h.blanking fun _ => ?_
      simpa using hn
  · exact (settled_self h).symm ▸ h

theorem governingRx_lawful {r : Channel} (h : r.Lawful) (m : Int) : (r.governingRx m).record.settled.Lawful := by
  have same : r.only.record.settled.Lawful := (settled_self h).symm ▸ h
  unfold Channel.governingRx
  split
  · exact same
  · exact same
  · exact same
  · rename_i hs
    have hi := inService_of h (by simp [hs])
    obtain ⟨h1, h2, h3, h4, h5⟩ := h.outsideTuning (by simp [hs])
    have h6 := h.noGain (by simp [hs])
    have h7 := h.outsideFoldback (by simp [hs])
    have h8 := h.offAir (by simp [hs, ChannelState.carrier])
    have h9 := h.settleRange
    have h10 := h.foldIff
    simp only [hs, reduceCtorEq, iff_false, not_lt, Nat.le_zero_eq] at h10
    constructor <;> simp [Channel.only, Channel.settled, hs, hi, h1, h2, h3, h4, h5, h6, h7, h8, h9, h10]
  · rename_i hs
    have hi := inService_of h (by simp [hs])
    have ho := h.outsideTuning (by simp [hs])
    split
    · exact enterSquelched_lawful hi ho
    · exact below_lawful h (Or.inl hs) _
  · rename_i hs
    have hi := inService_of h (by simp [hs])
    have ho := h.outsideTuning (by simp [hs])
    split
    · exact enterSquelched_lawful hi ho
    · exact below_lawful h (Or.inr hs) _
  · rename_i hs
    split
    · have h10 := h.foldIff
      simp only [hs, reduceCtorEq, iff_false, not_lt, Nat.le_zero_eq] at h10
      exact enterOnAir_lawful (inService_of h (by simp [hs])) h10 (h.outsideTuning (by simp [hs]))
    · exact same

theorem foldMore_lawful {p : SequencerParams} {r : Channel} (hp : p.Lawful) (h : r.Lawful)
    (hs : r.state = .onAir ∨ r.state = .foldback) : (r.foldMore p).record.settled.Lawful := by
  have hn : r.state ≠ .off ∧ r.state ≠ .tuning ∧ r.state ≠ .settling := by rcases hs with h | h <;> simp [h]
  have hi := inService_of h hn.1
  obtain ⟨h1, h2, h3, h4, h5⟩ := h.outsideTuning hn.2.1
  obtain ⟨h6, h7⟩ := h.outsideSettling hn.2.2
  have h8 := h.meanIffFresh
  have h9 := hp.foldbackStep
  have key : ({ r with state := .foldback, fold := r.fold + p.foldbackStep, recoverCount := 0 } : Channel).settled.Lawful := by
    rw [h7] at h8
    constructor <;> simp [Channel.settled, ChannelState.carrier, hi, h1, h2, h3, h4, h5, h6, h7]
    · simpa using h8
    · omega
  unfold Channel.foldMore
  split
  · exact enterShutdown_lawful hi
  · dsimp only
    split
    · exact key
    · exact key

theorem recover_lawful {p : SequencerParams} {r : Channel} (hp : p.Lawful) (h : r.Lawful) (hs : r.state = .foldback) :
    (r.recover p).settled.Lawful := by
  have hi := inService_of h (by simp [hs])
  obtain ⟨h1, h2, h3, h4, h5⟩ := h.outsideTuning (by simp [hs])
  obtain ⟨h6, h7⟩ := h.outsideSettling (by simp [hs])
  have h8 := h.meanIffFresh
  have h9 := hp.recoverWindows
  rw [h7] at h8
  unfold Channel.recover
  split
  · by_cases h0 : r.fold - p.foldbackStep = 0
    · constructor <;> simp [Channel.settled, ChannelState.carrier, hi, h0, h1, h2, h3, h4, h5, h6, h7]
      simpa using h8
    · constructor <;> simp [Channel.settled, ChannelState.carrier, hi, h0, h1, h2, h3, h4, h5, h6, h7]
      · simpa using h8
      · omega
  · have hf := h.foldIff
    constructor <;> simp [Channel.settled, ChannelState.carrier, hi, h1, h2, h3, h4, h5, h6, h7, hs]
    · simpa using h8
    · exact hf.2 hs
    · omega

theorem reflected_lawful {p : SequencerParams} {r : Channel} (hp : p.Lawful) (h : r.Lawful) (m : Int) :
    (r.reflected p m).record.settled.Lawful := by
  have same : r.only.record.settled.Lawful := (settled_self h).symm ▸ h
  unfold Channel.reflected
  split
  · rename_i hs
    split
    · exact foldMore_lawful hp h (Or.inl hs)
    · exact same
  · rename_i hs
    split
    · exact foldMore_lawful hp h (Or.inr hs)
    · exact recover_lawful hp h hs
  all_goals exact same

theorem entry_lawful {r : Channel} (h : r.Lawful) {e : PlanEntry} (he : e.service = .outOfService → r.state = .off) :
    ({ r with entry := e } : Channel).settled.Lawful := by
  have := (settled_self h).symm ▸ h
  exact ⟨this.1, this.2, this.3, this.4, this.5, this.6, this.7, this.8, this.9, this.10, this.11, this.12, this.13, he⟩

theorem sameFrequencyChange_lawful {r : Channel} (h : r.Lawful) {e : PlanEntry} (he : e.service ≠ .outOfService) :
    (r.sameFrequencyChange e).settled.Lawful := by
  have hg : r.gainUnder e = r.gain ∨ (r.state = .onAir ∨ r.state = .foldback ∨ r.state = .squelched) := by
    unfold Channel.gainUnder
    split
    · rename_i hc
      exact Or.inr hc.2.2
    · exact Or.inl rfl
  have hng : r.state = .off ∨ r.state = .tuning ∨ r.state = .settling ∨ r.state = .shutdown → r.gainUnder e = 0 := by
    intro hs
    rcases hg with hg | hg
    · rw [hg]
      exact h.noGain hs
    · rcases hs with hs | hs | hs | hs <;> simp [hs] at hg
  have hm := h.meanIffFresh
  unfold Channel.sameFrequencyChange
  split
  · exact ⟨h.1, h.2, h.3, h.4, h.5, h.6, hng, h.8, h.9, h.10, h.11, rfl, h.13, fun hx => absurd hx he⟩
  · refine ⟨h.1, h.2, h.3, fun hs => ⟨(h.4 hs).1, ?_⟩, h.5, ?_, hng, h.8, h.9, h.10, fun _ => rfl, rfl, h.13,
      fun hx => absurd hx he⟩
    · simp only [Channel.settled] at hs ⊢
      rw [if_neg hs]
      exact (h.4 hs).2
    · by_cases hs : r.state = .settling
      · simp [Channel.settled, hs]
      · simpa [Channel.settled, hs] using hm

theorem entryChanged_lawful {raster : Nat} {op : Bool} {r : Channel} (h : r.Lawful) (e : PlanEntry) :
    (r.entryChanged raster op e).record.settled.Lawful := by
  have hi : e.service ≠ .outOfService → e.service = .inService := by cases e.service <;> simp
  unfold Channel.entryChanged
  split
  · rename_i hs
    split
    · rename_i hc
      exact enterTuning_lawful raster hc.1
    · exact entry_lawful h fun _ => hs
  · split
    · exact enterOff_lawful _
    · rename_i hc
      split
      · exact sameFrequencyChange_lawful h hc
      · exact entry_lawful h fun hx => absurd hx hc
  all_goals
    split
    · exact enterOff_lawful _
    · rename_i hc
      split
      · exact sameFrequencyChange_lawful h hc
      · exact enterTuning_lawful raster (hi hc)

end Sys2Proof.Machine
end

