-- ==== Sys2Proof/Laws/Kept.lean ====
section
/-!
SUPPORT. A property of the state that neither messages nor responses break, through the shared operations: it is kept
where the block's own act keeps it.
-/

namespace Sys2Proof.Machine

/-- A property that neither messages nor responses break. -/
structure Calm (P : State → Prop) : Prop where
  transit : ∀ s ms, P s → P { s with transit := ms }
  ports : ∀ s i, P s → P { s with ports := i }

theorem answer_kept {P : State → Prop} (hP : Calm P) {p : Port} {tag : Option Byte} {r : Reply} {s : State} (h : P s) :
    P (s.answer p tag r) := by
  unfold State.answer
  split
  · exact h
  · exact hP.ports _ _ h

theorem take_kept {P : State → Prop} (hP : Calm P) {key : Message → Bool} {m : Message} {s s' : State}
    (h : s.take key = some (m, s')) (hs : P s) : P s' := by
  obtain ⟨ms, -, rfl⟩ := take_some h
  exact hP.transit _ _ hs

theorem serve_kept {P : State → Prop} (hP : Calm P) {o : Owner} {p : Port}
    {f : Request → State → Option (Reply × State)} {s : State}
    (hf : ∀ body s r s'', P s → f body s = some (r, s'') → P s'') (hs : P s) : P (serve o p f s) := by
  rcases serve_cases o p f s with h | ⟨tag, body, ms, r, s'', -, -, h, h'⟩
  · rw [h]
    exact hs
  · rw [h']
    exact answer_kept hP (hf _ _ _ _ (hP.transit _ _ hs) h)

theorem serveOnly_kept {P : State → Prop} (hP : Calm P) {o : Owner} {p : Port} {req : Request}
    {f : State → Reply × State} {s : State} (hf : ∀ s, P s → P (f s).2) (hs : P s) : P (serveOnly o p req f s) := by
  refine serve_kept hP (fun body s r s'' hs h => ?_) hs
  split_ifs at h
  have := hf s hs
  rw [Option.some.inj h] at this
  exact this

theorem configureItem_kept {P : State → Prop} (hP : Calm P) {i : Item} {p : Port}
    {f : List Byte → State → Reply × State} {s : State} (hf : ∀ v s, P s → P (f v s).2) (hs : P s) :
    P (configureItem i p f s) := by
  refine serve_kept hP (fun body s r s'' hs h => ?_) hs
  split at h
  · split_ifs at h
    rename_i v _
    have := hf v s hs
    rw [Option.some.inj h] at this
    exact this
  · simp at h

theorem holderOnly_kept {P : State → Prop} {p : Port} {f : State → Reply × State} {s : State}
    (hf : ∀ s, P s → P (f s).2) (hs : P s) : P (holderOnly p f s).2 := by
  unfold holderOnly
  split
  · exact hf s hs
  · exact hs

theorem takeTick_kept {P : State → Prop} (hP : Calm P) {k : TickConsumer} {f : Word16 → State → State} {s : State}
    (hf : ∀ n s, P s → P (f n s)) (hs : P s) : P (takeTick k f s) := by
  rcases takeTick_cases k f s with h | ⟨n, ms, -, h⟩
  · rw [h]
    exact hs
  · rw [h]
    exact hf _ _ (hP.transit _ _ hs)

theorem takePlanTick_kept {P : State → Prop} (hP : Calm P) {s : State} (hf : ∀ n s, P s → P (State.planTick n s))
    (hs : P s) : P s.takePlanTick := by
  unfold State.takePlanTick
  split
  · exact hs
  · exact takeTick_kept hP hf hs

theorem takeInitNotice_kept {P : State → Prop} (hP : Calm P) {b : InitBlock} {f : State → State} {s : State}
    (hf : ∀ s, P s → P (f s)) (hs : P s) : P (takeInitNotice b f s) := by
  rcases takeInitNotice_cases b f s with h | ⟨ms, -, h⟩
  · rw [h]
    exact hs
  · rw [h]
    exact hP.transit _ _ (hf _ (hP.transit _ _ hs))

theorem whenRunning_kept {P : State → Prop} {f : State → State} {s : State} (hf : ∀ s, P s → P (f s)) (hs : P s) :
    P (whenRunning f s) := by
  unfold whenRunning
  split
  · exact hf s hs
  · exact hs

end Sys2Proof.Machine
end

