-- ==== Sys2Proof/Tests/Slice0.lean ====
section
/-!
SUPPORT. Tests: the check on command terms, frames and records worked out from the manual, small steps, and for every
statement states that meet its hypotheses, clause by clause.
-/

namespace Sys2Proof.Tests

open Sys2Proof Sys2Proof.Machine

/-! ## States the tests start from -/

/-- A part after its start-up load and its reset writes. -/
def ready : State := { State.reset with licence := { State.reset.licence with loading := false }, link := ⟨[], none⟩ }

/-- Port A HOLDER and perhaps Port B RESERVE, their counts given. -/
def watch (a b : Nat) (role : Role) : AuthorityUnit := ⟨⟨.holder, a⟩, ⟨role, b⟩, ⟨.idle, 0⟩, 30⟩

/-- Port A HOLDER one tick before its lapse, Port B RESERVE two ticks before. -/
def duty : State := { ready with authority := watch 29 28 .reserve }

/-- A plan entry in service. -/
def entry0 : PlanEntry := { PlanEntry.default with service := .inService, gainTarget := 100, squelchOpen := 10 }

/-- The plan entry record that stores it. -/
def raw0 : RawEntry := ⟨1, 30000, 30025, 100, 0, none, 10, 0, 4, none, none⟩

/-- The same above the licence's ceiling. -/
def raw1 : RawEntry := { raw0 with gainTarget := 101 }

/-- A licence that admits it. -/
def licence0 : LicenceTable := put emptyLicence 15 (some ⟨30000, 40000, 100, some ⟨30000, 30000⟩⟩)

/-- A site in STANDBY with Port A HOLDER and a PROTECTED store. -/
def home : State := { ready with authority := watch 0 0 .idle, licence := ⟨.protected_, licence0, 0, emptyLicence, false⟩ }

/-- The same site in OPERATE. -/
def site : State := { home with mode := ⟨.operate, .reset, []⟩ }

/-- A site with an activation pending. -/
def armed (overdue : Option Nat) : State := { site with plan := { site.plan with pendingActivation := some ⟨5, 9, overdue, 0⟩ } }

/-- A site with this staged table. -/
def staging (t : PlanTable) (s : State) : State := { s with plan := { s.plan with staged := t } }

/-- A site under PER_ENTRY. -/
def perEntry (s : State) : State := { s with plan := { s.plan with applyMode := .perEntry } }

/-- A table with one entry in service. -/
def table (e : PlanEntry) : PlanTable := put PlanTable.default 7 e

/-- A site whose store stands in a state. -/
def store (x : StoreState) (s : State) : State := { s with licence := { s.licence with storeState := x } }

/-- A state whose channels all have one record, in OPERATE. -/
def seq (k : SequencerParams) (r : Channel) : State := { site with params := k, channels := Vector.replicate 8 r }

/-- A channel record in a state outside TUNING, with the in-service entry. -/
def chan (x : ChannelState) : Channel := { Channel.atReset true true with entry := entry0, state := x }

/-- A channel record in TUNING. -/
def tuning (x : SubPhase) (rx tx : Bool) : Channel := { Channel.atReset rx tx with entry := entry0, state := .tuning, subPhase := some x }

/-- A channel record on air at full gain. -/
def onAir : Channel := { chan .onAir with gain := 100, demandedGain := 100 }

/-- A channel record in FOLDBACK. -/
def folded (fold recover : Nat) : Channel :=
  { chan .foldback with gain := 100, fold := fold, demandedGain := 100 - fold, recoverCount := recover }

/-- A state with one message under way. -/
def sent (m : Message) (s : State) : State := { s with transit := [m] }

/-! ## Hypotheses met -/

/-- Some state in which this request is the next of its port and the rest of the hypotheses hold. -/
def Meets (o : Owner) (p : Port) (q : Request) (H : State → Prop) : Prop := ∃ s s', Asked o p (some 7) q s s' ∧ H s

theorem asked_sent (o : Owner) (p : Port) (q : Request) (s : State) :
    Asked o p (some 7) q (sent (.request o p (some 7) q) s) { s with transit := [] } := by
  simp [Asked, sent, State.take, pull, Message.isRequest]

theorem meets {o : Owner} {p : Port} {q : Request} {H : State → Prop} (s : State)
    (h : H (sent (.request o p (some 7) q) s)) : Meets o p q H :=
  ⟨_, _, asked_sent o p q s, h⟩

/-- Some state in which this message is the next its receiver takes and the rest of the hypotheses hold. -/
def Finds (key : Message → Bool) (m : Message) (H : State → Prop) : Prop := ∃ s s', s.take key = some (m, s') ∧ H s

theorem finds {key : Message → Bool} {m : Message} {H : State → Prop} (s : State) (hk : key m = true) (h : H (sent m s)) :
    Finds key m H := by
  refine ⟨_, { s with transit := [] }, ?_, h⟩
  simp [State.take, sent, pull, hk]

theorem seq_lawful {k : SequencerParams} {r : Channel} (hk : k.Lawful) (h : r.Lawful) (ms : List Message) :
    ({ seq k r with transit := ms } : State).SequencersLawful := by
  refine ⟨hk, fun c => ?_⟩
  simpa [seq] using h

/-- Some lawful state in which this message is the next channel 0 takes and its record meets the hypotheses. -/
def SeqFinds (key : Message → Bool) (m : Message) (H : Channel → State → Prop) : Prop :=
  ∃ s s', s.SequencersLawful ∧ s.take key = some (m, s') ∧ H (s.channels.get 0) s

theorem seqFinds {key : Message → Bool} {m : Message} {H : Channel → State → Prop} (k : SequencerParams) (r : Channel)
    (hl : k.Lawful ∧ r.Lawful) (hk : key m = true) (h : H r (sent m (seq k r))) : SeqFinds key m H := by
  refine ⟨sent m (seq k r), { seq k r with transit := [] }, seq_lawful hl.1 hl.2 _, ?_, ?_⟩
  · simp [State.take, sent, pull, hk]
  · simpa [sent, seq] using h

/-- The default parameters are lawful. -/
theorem default_lawful : SequencerParams.default.Lawful := by constructor <;> decide

/-- Parameters with SETTLE_EPOCHS 0. -/
def noSettling : SequencerParams := { SequencerParams.default with settleEpochs := 0 }

theorem noSettling_lawful : noSettling.Lawful := by constructor <;> decide

/-! ## Authority and keepalive -/

theorem witness_ClaimActsByRole :
    Meets .authority .a .claim (fun s => (s.authority.get .a).role = .idle ∧ s.authority.holder = none)
    ∧ Meets .authority .a .claim (fun s => (s.authority.get .a).role = .holder)
    ∧ Meets .authority .s .claim (fun s => (s.authority.get .s).role ≠ .holder ∧ s.authority.holder ≠ none) :=
  ⟨meets ready (by decide), meets duty (by decide), meets duty (by decide)⟩

theorem witness_ReserveExaminedInOrder :
    Meets .authority .s .reserve (fun _ => Port.s = .s)
    ∧ Meets .authority .b .reserve (fun s => Port.b ≠ .s ∧ (s.authority.get .b).role = .reserve)
    ∧ Meets .authority .a .reserve (fun s => Port.a ≠ .s ∧ (s.authority.get .a).role = .holder)
    ∧ Meets .authority .a .reserve
      (fun s => Port.a ≠ .s ∧ (s.authority.get .a).role = .idle ∧ s.authority.holder = none)
    ∧ Meets .authority .a .reserve (fun s => Port.a ≠ .s ∧ (s.authority.get .a).role = .idle
      ∧ s.authority.holder ≠ none ∧ s.authority.reserve ≠ none)
    ∧ Meets .authority .b .reserve (fun s => Port.b ≠ .s ∧ (s.authority.get .b).role = .idle
      ∧ s.authority.holder ≠ none ∧ s.authority.reserve = none) :=
  ⟨meets ready (by decide), meets duty (by decide), meets duty (by decide), meets ready (by decide),
    meets { duty with authority := ⟨⟨.idle, 0⟩, ⟨.reserve, 0⟩, ⟨.holder, 0⟩, 30⟩ } (by decide), meets home (by decide)⟩

theorem watch_lawful {a b : Nat} {role : Role} (h : a < 30 ∧ (role = .reserve ∧ b < 30 ∨ role = .idle ∧ b = 0)) :
    (watch a b role).Lawful := by
  obtain ⟨h1, ⟨rfl, h2⟩ | ⟨rfl, h2⟩⟩ := h
  all_goals
    refine ⟨?_, ?_, fun p _ => ⟨.a, rfl⟩, by simp [watch], ?_, ?_, by simp [watch]⟩
    · intro p q; cases p <;> cases q <;> simp [watch, AuthorityUnit.get]
    · intro p q; cases p <;> cases q <;> simp [watch, AuthorityUnit.get]
    · intro p; cases p <;> simp [watch, AuthorityUnit.get, h1, h2]
    · intro p; cases p <;> simp [watch, AuthorityUnit.get, h2]

theorem duty_lawful : duty.authority.Lawful := watch_lawful (by decide)

theorem home_lawful : home.authority.Lawful := watch_lawful (by decide)

theorem witness_ReleaseHandsAuthorityToReserve :
    Meets .authority .a .release (fun s => s.authority.Lawful ∧ (s.authority.get .a).role = .holder
      ∧ (s.authority.get .b).role = .reserve)
    ∧ Meets .authority .a .release (fun s => s.authority.Lawful ∧ (s.authority.get .a).role = .holder
      ∧ ∀ q, (s.authority.get q).role ≠ .reserve)
    ∧ Meets .authority .b .release (fun s => s.authority.Lawful ∧ (s.authority.get .b).role = .reserve)
    ∧ Meets .authority .s .release (fun s => s.authority.Lawful ∧ (s.authority.get .s).role = .idle) :=
  ⟨meets duty ⟨duty_lawful, by decide⟩, meets home ⟨home_lawful, by decide, fun q => by cases q <;> decide⟩,
    meets duty ⟨duty_lawful, by decide⟩, meets duty ⟨duty_lawful, by decide⟩⟩

theorem witness_KeepaliveRenewsRequestingPort :
    Meets .authority .b .keepalive (fun s => (s.authority.get .b).role ≠ .idle)
    ∧ Meets .authority .s .keepalive (fun s => (s.authority.get .s).role = .idle) :=
  ⟨meets duty (by decide), meets duty (by decide)⟩

/-- A tick at which nothing lapses, the holder alone, the holder beside a surviving reserve, both, the reserve alone. -/
theorem witness_AuthorityTickRaisesCountsAndLapses :
    Finds (Message.isTick .authority) (.tick .authority 1) (fun s => s.authority.Lawful
      ∧ ¬ s.authority.Lapsing .holder ∧ ¬ s.authority.Lapsing .reserve ∧ (s.authority.get .s).role = .idle
      ∧ (s.authority.get .a).role = .holder ∧ (s.authority.get .a).count + 1 < s.authority.limit
      ∧ (s.authority.get .b).role = .reserve ∧ (s.authority.get .b).count + 1 < s.authority.limit)
    ∧ Finds (Message.isTick .authority) (.tick .authority 1) (fun s => s.authority.Lawful ∧ s.authority.Lapsing .holder
      ∧ (∀ p, (s.authority.get p).role ≠ .reserve) ∧ s.authority.limit ≤ (s.authority.get .a).count + 1)
    ∧ Finds (Message.isTick .authority) (.tick .authority 1) (fun s => s.authority.Lawful ∧ s.authority.Lapsing .holder
      ∧ s.authority.Surviving .reserve)
    ∧ Finds (Message.isTick .authority) (.tick .authority 1) (fun s => s.authority.Lawful ∧ s.authority.Lapsing .holder
      ∧ s.authority.Lapsing .reserve)
    ∧ Finds (Message.isTick .authority) (.tick .authority 1) (fun s => s.authority.Lawful ∧ ¬ s.authority.Lapsing .holder
      ∧ s.authority.Lapsing .reserve) := by
  refine ⟨finds { duty with authority := watch 28 28 .reserve } rfl ⟨watch_lawful (by decide), ?_, ?_, by decide⟩,
    finds { duty with authority := watch 29 0 .idle } rfl ⟨watch_lawful (by decide), ⟨.a, by decide⟩, fun p => by cases p <;> decide, by decide⟩,
    finds { duty with authority := watch 29 28 .reserve } rfl ⟨watch_lawful (by decide), ⟨.a, by decide⟩, ⟨.b, by decide⟩⟩,
    finds { duty with authority := watch 29 29 .reserve } rfl ⟨watch_lawful (by decide), ⟨.a, by decide⟩, ⟨.b, by decide⟩⟩,
    finds { duty with authority := watch 28 29 .reserve } rfl ⟨watch_lawful (by decide), ?_, ⟨.b, by decide⟩⟩⟩
  all_goals rintro ⟨p, h⟩; revert h; cases p <;> decide

theorem witness_KeepaliveLimitConfiguredAndRead :
    Meets .authority .b (.configure .keepaliveLimit [2]) (fun s => ¬ Holds s .b)
    ∧ Meets .authority .a (.configure .keepaliveLimit [1]) (fun s => Holds s .a ∧ (1 : Byte).toNat < 2)
    ∧ Meets .authority .a (.configure .keepaliveLimit [2]) (fun s => Holds s .a ∧ 2 ≤ (2 : Byte).toNat)
    ∧ Meets .authority .a (.configure .keepaliveLimit [255]) (fun s => Holds s .a ∧ 2 ≤ (255 : Byte).toNat)
    ∧ Meets .authority .s (.readConfig .keepaliveLimit []) (fun _ => True) :=
  ⟨meets home (by decide), meets home (by decide), meets home (by decide), meets home (by decide), meets home trivial⟩

/-! ## The channel plan and its activation -/

theorem witness_StageEntryWritesStagedPlan :
    Meets .plan .b (.stageEntry 0 raw0) (fun s => ¬ Holds s .b)
    ∧ Meets .plan .a (.stageEntry 0 raw0) (fun s => Holds s .a ∧ s.plan.pendingActivation.isSome)
    ∧ Meets .plan .a (.stageEntry 8 raw0) (fun s => Holds s .a ∧ s.plan.pendingActivation = none ∧ 8 ≤ 8)
    ∧ Meets .plan .a (.stageEntry 7 { raw0 with squelchSource := some 7 }) (fun s => Holds s .a
      ∧ s.plan.pendingActivation = none ∧ 7 = (7 : Chan).val
      ∧ entryFault s.plan.raster 7 { raw0 with squelchSource := some 7 } = some .squelchSource)
    ∧ Meets .plan .a (.stageEntry 7 raw0) (fun s => Holds s .a ∧ s.plan.pendingActivation = none ∧ 7 = (7 : Chan).val
      ∧ entryFault s.plan.raster 7 raw0 = none ∧ s.plan.applyMode = .wholePlan) :=
  ⟨meets site (by decide), meets (armed none) (by decide), meets site (by decide), meets site (by decide),
    meets site (by decide)⟩

theorem witness_StageEntryPerEntryWritesBothTables :
    Meets .plan .a (.stageEntry (7 : Chan).val raw0) (fun s => Holds s .a ∧ s.plan.pendingActivation = none
      ∧ entryFault s.plan.raster 7 raw0 = none ∧ s.plan.applyMode = .perEntry ∧ s.mode.mode = .standby)
    ∧ Meets .plan .a (.stageEntry (7 : Chan).val raw0) (fun s => Holds s .a ∧ s.plan.pendingActivation = none
      ∧ entryFault s.plan.raster 7 raw0 = none ∧ s.plan.applyMode = .perEntry ∧ s.mode.mode = .operate
      ∧ s.validate (put s.plan.active 7 raw0.toEntry) = none
      ∧ (s.channels.get 7).state ≠ .tuning ∧ (s.channels.get 7).state ≠ .settling)
    ∧ Meets .plan .a (.stageEntry (7 : Chan).val raw1) (fun s => Holds s .a ∧ s.plan.pendingActivation = none
      ∧ entryFault s.plan.raster 7 raw1 = none ∧ s.plan.applyMode = .perEntry ∧ s.mode.mode = .operate
      ∧ s.validate (put s.plan.active 7 raw1.toEntry) = some (.refused .licence .gainCeiling 7))
    ∧ Meets .plan .a (.stageEntry (7 : Chan).val raw0) (fun s => Holds s .a ∧ s.plan.pendingActivation = none
      ∧ entryFault s.plan.raster 7 raw0 = none ∧ s.plan.applyMode = .perEntry ∧ s.mode.mode = .operate
      ∧ s.validate (put s.plan.active 7 raw0.toEntry) = none
      ∧ ((s.channels.get 7).state = .tuning ∨ (s.channels.get 7).state = .settling)) :=
  ⟨meets (perEntry home) (by decide), meets (perEntry site) (by decide), meets (perEntry site) (by decide),
    meets (perEntry (seq .default (chan .settling))) (by decide)⟩

theorem witness_StageClearAndCopyWriteStagedPlan :
    Meets .plan .b .stageClear (fun s => ¬ Holds s .b)
    ∧ Meets .plan .a .stageCopy (fun s => Holds s .a ∧ s.plan.pendingActivation.isSome)
    ∧ Meets .plan .a .stageClear (fun s => Holds s .a ∧ s.plan.pendingActivation = none
      ∧ s.plan.applyMode = .perEntry ∧ s.mode.mode = .operate)
    ∧ Meets .plan .a .stageClear (fun s => Holds s .a ∧ s.plan.pendingActivation = none
      ∧ (s.plan.applyMode = .wholePlan ∨ s.mode.mode = .standby) ∧ ∀ c, PlanTable.default.get c = PlanEntry.default)
    ∧ Meets .plan .a .stageCopy (fun s => Holds s .a ∧ s.plan.pendingActivation = none
      ∧ (s.plan.applyMode = .wholePlan ∨ s.mode.mode = .standby)) :=
  ⟨meets site (by decide), meets (armed none) (by decide), meets (perEntry site) (by decide),
    meets site (by decide), meets (perEntry home) (by decide)⟩

theorem witness_ApplyModeConfigured :
    Meets .plan .b (.configure .applyMode [1]) (fun s => ¬ Holds s .b)
    ∧ Meets .plan .a (.configure .applyMode [1]) (fun s => Holds s .a ∧ s.plan.pendingActivation.isSome)
    ∧ Meets .plan .a (.configure .applyMode [2])
      (fun s => Holds s .a ∧ s.plan.pendingActivation = none ∧ (2 : Byte) ≠ 0 ∧ (2 : Byte) ≠ 1)
    ∧ Meets .plan .a (.configure .applyMode [0]) (fun s => Holds s .a ∧ s.plan.pendingActivation = none)
    ∧ Meets .plan .a (.configure .applyMode [1]) (fun s => Holds s .a ∧ s.plan.pendingActivation = none)
    ∧ Meets .plan .s (.readConfig .applyMode []) (fun _ => True) :=
  ⟨meets site (by decide), meets (armed none) (by decide), meets site (by decide), meets site (by decide),
    meets site (by decide), meets site trivial⟩

theorem witness_RasterConfigured :
    Meets .plan .b (.configure .raster [0, 1]) (fun s => ¬ Holds s .b)
    ∧ Meets .plan .a (.configure .raster [0, 1]) (fun s => Holds s .a ∧ s.mode.mode = .operate)
    ∧ Meets .plan .a (.configure .raster [0, 0]) (fun s => Holds s .a ∧ s.mode.mode = .standby
      ∧ 256 * (0 : Byte).toNat + (0 : Byte).toNat = 0)
    ∧ Meets .plan .a (.configure .raster [3, 233]) (fun s => Holds s .a ∧ s.mode.mode = .standby
      ∧ 1000 < 256 * (3 : Byte).toNat + (233 : Byte).toNat)
    ∧ Meets .plan .a (.configure .raster [3, 232]) (fun s => Holds s .a ∧ s.mode.mode = .standby
      ∧ 1 ≤ 256 * (3 : Byte).toNat + (232 : Byte).toNat ∧ 256 * (3 : Byte).toNat + (232 : Byte).toNat ≤ 1000)
    ∧ Meets .plan .s (.readConfig .raster []) (fun _ => True) :=
  ⟨meets site (by decide), meets site (by decide), meets home (by decide), meets home (by decide),
    meets home (by decide), meets site trivial⟩

/-- The Plan Controller's initialize notice, with a record pending and without. -/
theorem witness_PlanInitializeRestoresDefaults :
    Finds (Message.isInitNotice .planController) (.initNotice .planController) (fun s => s.plan.pendingActivation.isSome)
    ∧ Finds (Message.isInitNotice .planController) (.initNotice .planController)
      (fun s => s.plan.active.get 7 ≠ PlanEntry.default) :=
  ⟨finds (armed none) rfl (by decide),
    finds { home with plan := { home.plan with active := table entry0 } } rfl (by decide)⟩

/-- The arm window: 0, 1, 4,096 and 4,097 epochs ahead of 65,535 (chapter 4). -/
theorem test_armWindow :
    targetEpoch 65535 1 65535 = none ∧ targetEpoch 65535 1 0 = some 0 ∧ targetEpoch 65535 1 4095 = some 4095
    ∧ targetEpoch 65535 1 4096 = none ∧ targetEpoch 65535 2 0 = none ∧ targetEpoch 65535 0 7 = some 0 := by
  decide

theorem witness_ArmActivationCreatesPendingRecord :
    Meets .plan .b (.armActivation 1 0 0) (fun s => ¬ Holds s .b)
    ∧ Meets .plan .a (.armActivation 1 0 0) (fun s => Holds s .a ∧ s.plan.applyMode = .perEntry)
    ∧ Meets .plan .a (.armActivation 1 0 0)
      (fun s => Holds s .a ∧ s.plan.applyMode = .wholePlan ∧ s.mode.mode = .standby)
    ∧ Meets .plan .a (.armActivation 1 0 0) (fun s => Holds s .a ∧ s.plan.applyMode = .wholePlan
      ∧ s.mode.mode = .operate ∧ s.plan.pendingActivation.isSome)
    ∧ Meets .plan .a (.armActivation 1 1 4096) (fun s => Holds s .a ∧ s.plan.applyMode = .wholePlan
      ∧ s.mode.mode = .operate ∧ s.plan.pendingActivation = none ∧ (1 : Word16) ≠ 0
      ∧ targetEpoch s.timebase.counter 1 4096 = some 4096 ∧ s.validate s.plan.staged = none)
    ∧ Meets .plan .a (.armActivation 1 1 4097) (fun s => Holds s .a ∧ s.plan.applyMode = .wholePlan
      ∧ s.mode.mode = .operate ∧ s.plan.pendingActivation = none ∧ (1 : Word16) ≠ 0
      ∧ targetEpoch s.timebase.counter 1 4097 = none)
    ∧ Meets .plan .a (.armActivation 1 0 0) (fun s => Holds s .a ∧ s.plan.applyMode = .wholePlan
      ∧ s.mode.mode = .operate ∧ s.plan.pendingActivation = none ∧ (1 : Word16) ≠ 0
      ∧ targetEpoch s.timebase.counter 0 0 = some 1
      ∧ s.validate s.plan.staged = some (.refused .licence .gainCeiling 7)) :=
  ⟨meets site (by decide), meets (perEntry site) (by decide), meets home (by decide), meets (armed none) (by decide),
    meets (staging (table raw0.toEntry) site) (by decide), meets site (by decide),
    meets (staging (table raw1.toEntry) site) (by decide)⟩

theorem witness_DisarmAndStandbyNoticeRemovePendingRecord :
    Meets .plan .b .disarm (fun s => ¬ Holds s .b)
    ∧ Meets .plan .a .disarm (fun s => Holds s .a ∧ s.plan.pendingActivation = none)
    ∧ Meets .plan .a .disarm (fun s => Holds s .a ∧ s.plan.pendingActivation = some ⟨5, 9, some 31, 0⟩)
    ∧ Finds Message.isStandbyNotice .standbyNotice (fun s => s.plan.pendingActivation = none)
    ∧ Finds Message.isStandbyNotice .standbyNotice (fun s => s.plan.pendingActivation.isSome) :=
  ⟨meets site (by decide), meets site (by decide), meets (armed (some 31)) (by decide), finds home rfl (by decide),
    finds (armed none) rfl (by decide)⟩

theorem witness_ActivateNowCarriesOutActivation :
    Meets .plan .b (.activateNow 1) (fun s => ¬ Holds s .b)
    ∧ Meets .plan .a (.activateNow 1) (fun s => Holds s .a ∧ s.plan.applyMode = .perEntry)
    ∧ Meets .plan .a (.activateNow 1)
      (fun s => Holds s .a ∧ s.plan.applyMode = .wholePlan ∧ s.plan.pendingActivation.isSome)
    ∧ Meets .plan .a (.activateNow 0)
      (fun s => Holds s .a ∧ s.plan.applyMode = .wholePlan ∧ s.plan.pendingActivation = none)
    ∧ Meets .plan .a (.activateNow 1) (fun s => Holds s .a ∧ s.plan.applyMode = .wholePlan
      ∧ s.plan.pendingActivation = none ∧ s.validate s.plan.staged = some (.refused .licence .gainCeiling 7))
    ∧ Meets .plan .a (.activateNow 1) (fun s => Holds s .a ∧ s.plan.applyMode = .wholePlan
      ∧ s.plan.pendingActivation = none ∧ s.validate s.plan.staged = none ∧ s.mode.mode = .operate
      ∧ (s.channels.get 7).state.retuning = true ∧ ∀ d < (7 : Chan), (s.channels.get d).state.retuning = false)
    ∧ Meets .plan .a (.activateNow 1) (fun s => Holds s .a ∧ s.plan.applyMode = .wholePlan
      ∧ s.plan.pendingActivation = none ∧ s.validate s.plan.staged = none ∧ s.mode.mode = .standby)
    ∧ Meets .plan .a (.activateNow 1) (fun s => Holds s .a ∧ s.plan.applyMode = .wholePlan
      ∧ s.plan.pendingActivation = none ∧ s.validate s.plan.staged = none ∧ s.mode.mode = .operate
      ∧ ∀ c, (s.channels.get c).state ≠ .tuning ∧ (s.channels.get c).state ≠ .settling) :=
  ⟨meets site (by decide), meets (perEntry site) (by decide), meets (armed none) (by decide), meets site (by decide),
    meets (staging (table raw1.toEntry) site) (by decide),
    meets { site with channels := put site.channels 7 (tuning .writing false false) } (by decide),
    meets (staging (table raw0.toEntry) home) (by decide), meets (staging (table raw0.toEntry) site) (by decide)⟩

/-- A tick of the Plan Controller with a standby notice of an earlier departure still under way. -/
def late (s : State) : State := { s with transit := [.tick .plan 9, .standbyNotice] }

/-- The site in STANDBY beside a record armed before it left OPERATE. -/
def departed : State := { armed none with mode := home.mode }

/-- A record armed since the site entered OPERATE again, beside the notice of the departure before. -/
def rearmed (overdue : Option Nat) : State :=
  late { site with plan := { site.plan with pendingActivation := some ⟨5, 9, overdue, 1⟩ } }

/-- Some state in which the Plan Controller takes the tick of epoch 9 next and this record stands in OPERATE, with no notice
sent since the arming: no notice under way, or one older than the record. -/
def Ticks (overdue : Option Nat) (epoch : Word16) (H : State → Prop) : Prop :=
  ∀ old ∈ [0, 1], ∃ s s' : State, s.take (Message.isTick .plan) = some (.tick .plan epoch, s')
    ∧ s.plan.pendingActivation = some ⟨5, 9, overdue, old⟩ ∧ s.mode.mode = .operate
    ∧ s.transit.count .standbyNotice = old ∧ H s

theorem ticks {overdue : Option Nat} {epoch : Word16} {H : State → Prop} (channels : Vector Channel 8)
    (h : ∀ old ms, H { site with
      channels := channels, plan := { site.plan with pendingActivation := some ⟨5, 9, overdue, old⟩ }, transit := ms }) :
    Ticks overdue epoch H := by
  intro old ho
  refine ⟨_, { site with
    channels := channels
    plan := { site.plan with pendingActivation := some ⟨5, 9, overdue, old⟩ }
    transit := List.replicate old .standbyNotice }, ?_, rfl, rfl, ?_,
    h old (.tick .plan epoch :: List.replicate old .standbyNotice)⟩
  · rfl
  · simp

theorem witness_PlanTickTestsAndDefersActivation :
    Finds (Message.isTick .plan) (.tick .plan 9) (fun s => s.plan.pendingActivation = none)
    ∧ Finds (Message.isTick .plan) (.tick .plan 9)
      (fun s => s.plan.pendingActivation = some ⟨5, 9, none, 0⟩ ∧ s.mode.mode = .standby)
    ∧ (∃ s s' : State, s.take (Message.isTick .plan) = some (.tick .plan 9, s')
      ∧ s.plan.pendingActivation = some ⟨5, 9, none, 0⟩ ∧ s.mode.mode = .operate ∧ 0 < s.transit.count .standbyNotice)
    ∧ Ticks none 8 (fun _ => (8 : Word16) ≠ 9)
    ∧ (∀ overdue ∈ [none, some 31], Ticks overdue 9
      (fun s => ∀ c, (s.channels.get c).state ≠ .tuning ∧ (s.channels.get c).state ≠ .settling))
    ∧ (∀ overdue ∈ [none, some 0, some 30, some 31], Ticks overdue 9 (fun s => (s.channels.get 0).state = .settling)) :=
  ⟨finds site rfl (by decide), finds departed rfl (by decide), ⟨late (armed none), _, rfl, by decide⟩,
    ticks site.channels fun _ _ => by decide,
    fun _ _ => ticks site.channels fun _ _ => show ∀ c, (site.channels.get c).state ≠ .tuning
      ∧ (site.channels.get c).state ≠ .settling by decide,
    fun _ _ => ticks (Vector.replicate 8 (chan .settling)) fun _ _ => rfl⟩

/-- In OPERATE the tick waits behind the notice of a departure that the record outlived, and not behind an older notice; in
STANDBY it comes before the notice and abandons the record. -/
theorem test_standbyNoticeBeforeTick : execPlanControllerTick (late (armed none)) = .next (late (armed none))
    ∧ (rearmed none).takePlanTick.plan.number = 5 ∧ (rearmed none).takePlanTick.transit.head? = some .standbyNotice
    ∧ (late departed).takePlanTick.plan.pendingActivation = none := ⟨rfl, by decide⟩

/-- ARM_ACTIVATION notes the notices untaken when it is taken. -/
theorem test_armingCountsOldNotices :
    (armActivation 5 0 0 (late (staging (table raw0.toEntry) site))).2.plan.pendingActivation.map
      PendingActivation.oldNotices = some 1 := by decide

/-! ## The licence -/

/-- The licence admits the entry at the ends of its windows and at its ceiling; one step more is not admitted, and the
first channel not admitted is named. -/
theorem witness_LicenceAdmissionJudgesInServiceEntries :
    site.licence.admits entry0 = true ∧ site.licence.admits raw1.toEntry = false
    ∧ planFault site.plan.raster (table raw1.toEntry) = none
    ∧ (∀ d < (7 : Chan), ((table raw1.toEntry).get d).service = .inService →
      site.licence.admits ((table raw1.toEntry).get d) = true)
    ∧ site.licence.reason raw1.toEntry = .gainCeiling
    ∧ site.licence.reason { entry0 with rxFreq := 30050 } = .noWindow
    ∧ planFault site.plan.raster (Vector.replicate 8 entry0) = some (.txClash, 0)
    ∧ planFault 7 (table entry0) = some (.offRaster, 7) := by
  decide

theorem witness_LicenceEntryWritesWorkingSlot :
    Meets .licence .a (.licenceEntry 0 none) (fun s => Holds s .a ∧ s.mode.mode = .standby
      ∧ (s.licence.storeState = .protected_ ∨ s.licence.storeState = .incomplete))
    ∧ Meets .licence .a (.licenceEntry 16 none)
      (fun s => Holds s .a ∧ s.mode.mode = .standby ∧ s.licence.storeState = .blank ∧ 16 ≤ 16)
    ∧ Meets .licence .a (.licenceEntry 15 none)
      (fun s => Holds s .a ∧ s.mode.mode = .standby ∧ s.licence.storeState = .blank ∧ 15 = (15 : Fin 16).val)
    ∧ Meets .licence .a (.licenceEntry 15 (some ⟨30000, 29999, 600, none, none⟩)) (fun s => Holds s .a
      ∧ s.mode.mode = .standby ∧ s.licence.storeState = .blank
      ∧ licenceFault ⟨30000, 29999, 600, none, none⟩ = some .txHigh)
    ∧ Meets .licence .a (.licenceEntry 15 (some ⟨30000, 1000000, 600, some 30000, some 30000⟩)) (fun s => Holds s .a
      ∧ s.mode.mode = .standby ∧ s.licence.storeState = .blank
      ∧ licenceFault ⟨30000, 1000000, 600, some 30000, some 30000⟩ = none) :=
  ⟨meets home (by decide), meets (store .blank home) (by decide), meets (store .blank home) (by decide),
    meets (store .blank home) (by decide), meets (store .blank home) (by decide)⟩

theorem witness_LicenceCommitAndEraseBeginOperations :
    Meets .licence .b .licenceCommit (fun s => ¬ Holds s .b)
    ∧ Meets .licence .a .licenceErase (fun s => Holds s .a ∧ s.mode.mode = .operate)
    ∧ Meets .licence .a (.licenceEntry 0 none)
      (fun s => Holds s .a ∧ s.mode.mode = .standby ∧ s.licence.storeState = .programming)
    ∧ Meets .licence .a .licenceCommit
      (fun s => Holds s .a ∧ s.mode.mode = .standby ∧ s.licence.storeState = .protected_)
    ∧ Meets .licence .a .licenceCommit (fun s => Holds s .a ∧ s.mode.mode = .standby ∧ s.licence.storeState = .blank
      ∧ ∀ i, s.licence.working.get i = none)
    ∧ Meets .licence .a .licenceCommit (fun s => Holds s .a ∧ s.mode.mode = .standby ∧ s.licence.storeState = .blank
      ∧ s.licence.working.get 15 ≠ none)
    ∧ Meets .licence .a .licenceErase (fun s => Holds s .a ∧ s.mode.mode = .standby
      ∧ s.licence.storeState ≠ .programming ∧ s.licence.storeState ≠ .erasing) :=
  ⟨meets home (by decide), meets site (by decide), meets (store .programming home) (by decide), meets home (by decide),
    meets (store .blank home) (by decide),
    meets { home with licence := { home.licence with storeState := .blank, working := licence0 } } (by decide),
    meets home (by decide)⟩

theorem witness_ReadEntryAndReadLicenceReturnNamedPlace :
    Meets .plan .s (.readEntry 2 0) (fun _ => 2 ≤ 2)
    ∧ Meets .plan .s (.readEntry 1 8) (fun _ => 1 < 2 ∧ 8 ≤ 8)
    ∧ Meets .plan .s (.readEntry 1 7) (fun _ => 1 < 2 ∧ 7 = (7 : Chan).val)
    ∧ Meets .licence .s (.readLicence 2 0) (fun _ => 2 ≤ 2)
    ∧ Meets .licence .s (.readLicence 0 16) (fun _ => 0 < 2 ∧ 16 ≤ 16)
    ∧ Meets .licence .s (.readLicence 0 15) (fun s => 0 < 2 ∧ 15 < 16 ∧ s.licence.storeState = .erasing)
    ∧ Meets .licence .s (.readLicence 0 15) (fun s => 0 < 2 ∧ 15 = (15 : Fin 16).val
      ∧ s.licence.storeState ≠ .programming ∧ s.licence.storeState ≠ .erasing) :=
  ⟨meets site (by decide), meets site (by decide), meets site (by decide), meets site (by decide), meets site (by decide),
    meets (store .erasing home) (by decide), meets site (by decide)⟩

/-- The completions and the end of the load, by the recorded store state. The two outcomes of a check value under
PROTECTED hang on a constant without a body: the table read and the value recorded agree where both are its value. -/
theorem witness_LicenceOperationsAndLoadComplete :
    (∃ s : State, s.phase = .running ∧ s.licence.loading = false ∧ s.plan.pendingActivation ≠ none
      ∧ s.licence.storeState = .programming ∧ emptyLicence = s.licence.working ∧ licence0 ≠ s.licence.working)
    ∧ (∃ s : State, s.phase = .running ∧ s.licence.loading = false ∧ s.plan.pendingActivation ≠ none
      ∧ Message.standbyNotice ∈ s.transit ∧ s.licence.storeState = .erasing)
    ∧ (∀ x : StoreState, ∃ s : State, s.phase = .running ∧ s.licence.loading = true ∧ s.licence.storeState = x
      ∧ Config.checkValue licence0 = s.licence.checkValue)
    ∧ (∃ s : State, s.phase = .running ∧ s.licence.loading = true ∧ s.licence.storeState = .protected_
      ∧ Config.checkValue licence0 ≠ s.licence.checkValue) := by
  refine ⟨⟨store .programming (armed none), by decide⟩,
    ⟨sent .standbyNotice (store .erasing departed), by decide⟩, fun x => ?_, ?_⟩
  · exact ⟨{ State.reset with licence := ⟨x, licence0, Config.checkValue licence0, emptyLicence, true⟩ }, rfl, rfl, rfl, rfl⟩
  · exact ⟨{ State.reset with licence := ⟨.protected_, licence0, Config.checkValue licence0 + 1, emptyLicence, true⟩ },
      rfl, rfl, rfl, by simp⟩

/-- An erasure completes beside a pending record, which the standby notice of the departure still waits to remove. -/
theorem test_erasureBesidePendingActivation :
    execEraseCompletion (sent .standbyNotice (store .erasing departed))
      = .next (sent .standbyNotice (store .erasing departed)).completeErase
    ∧ (store .erasing departed).completeErase.licence.storeState = .blank := ⟨rfl, by decide⟩

/-! ## The epoch timebase and the read-only items -/

/-- A site so many units into its epoch of 1,000. -/
def atUnit (n : Nat) : State := { site with timebase := { site.timebase with position := n } }

theorem witness_SetEpochAndEpochEnd :
    Meets .timebase .b (.setEpoch 1 10) (fun s => ¬ Holds s .b)
    ∧ Meets .timebase .a (.setEpoch 3 10) (fun s => Holds s .a ∧ 3 ∉ [1, 2, 4, 8, 16, 32, 64])
    ∧ Meets .timebase .a (.setEpoch 64 9) (fun s => Holds s .a ∧ 64 ∈ [1, 2, 4, 8, 16, 32, 64] ∧ 9 < 10)
    ∧ Meets .timebase .a (.setEpoch 64 10) (fun s => Holds s .a ∧ 64 ∈ [1, 2, 4, 8, 16, 32, 64] ∧ 10 ≤ 10 ∧ 10 ≤ 65535)
    ∧ Meets .timebase .a (.setEpoch 1 65535)
      (fun s => Holds s .a ∧ 1 ∈ [1, 2, 4, 8, 16, 32, 64] ∧ 10 ≤ 65535 ∧ 65535 ≤ 65535)
    ∧ (∃ s : State, s.timebase.position + 1 < s.timebase.prescale * s.timebase.modulo)
    ∧ (∃ s : State, s.licence.loading = true)
    ∧ (∃ s : State, s.phase = .running ∧ s.licence.loading = false
      ∧ s.timebase.prescale * s.timebase.modulo ≤ s.timebase.position + 1)
    ∧ Finds (Message.isTick .plan) (.tick .plan 1) (fun _ => True) :=
  ⟨meets site (by decide), meets site (by decide), meets site (by decide), meets site (by decide), meets site (by decide),
    ⟨atUnit 998, by decide⟩, ⟨State.reset, rfl⟩, ⟨atUnit 999, by decide⟩, finds site rfl trivial⟩

/-- The last unit of the first epoch waits for the end of the start-up load (R46, log entry 34). -/
theorem test_firstTickAfterLoad :
    (∀ s : State, s = { State.reset with timebase := { State.reset.timebase with position := 999 } } → step s = .next s)
    ∧ step (atUnit 999) = .next (atUnit 999).endEpoch := by
  exact ⟨fun s h => by rw [h]; rfl, rfl⟩

/-- SET EPOCH before an EPOCH_END that waits behind it: the epoch it discarded does not end (R44). -/
theorem test_discardedEpoch :
    exec .epochEnd (setEpochPeriod 2 500 (atUnit 999)).2 = .next (setEpochPeriod 2 500 (atUnit 999)).2 := by
  rfl

theorem witness_ReadOnlyItemsReadAndRefused :
    Meets .timebase .s (.readConfig .epochPeriod []) (fun _ => True)
    ∧ Meets .conditions .s (.readConfig .attention_ []) (fun _ => True)
    ∧ Meets .timebase .a (.configure .epochPeriod [1]) (fun s => s.isHolder .a = true)
    ∧ Meets .level .b (.configure .latestResult []) (fun s => s.isHolder .b = false)
    ∧ Meets .conditions .a (.configure .attention_ []) (fun s => s.isHolder .a = true) :=
  ⟨meets site trivial, meets site trivial, meets site (by decide), meets site (by decide), meets site (by decide)⟩

/-! ## The channel sequencers -/

/-- Records in TUNING at WRITING with a count. -/
def writing (tuneCount : Nat) : Channel := { tuning .writing false false with tuneCount := tuneCount }

/-- Records in BLANKING with a count. -/
def blanking (count : Nat) (rx tx : Bool) : Channel := { tuning .blanking rx tx with blankingCount := count }

/-- Records in SETTLING with a count and perhaps a mean. -/
def settling (count : Nat) (mean : Option Int) : Channel :=
  { chan .settling with settleCount := count, settlingMean := mean, freshRx := mean.isSome }

/-- An entry under RAMP. -/
def ramping : PlanEntry := { entry0 with gainMode := .ramp, rampRate := some 50 }

theorem witness_SequencerTickActsByState :
    (∀ x ∈ [ChannelState.off, .squelched, .shutdown], SeqFinds (Message.isTick (.sequencer 0)) (.tick (.sequencer 0) 1)
      (fun r _ => r.state = x))
    ∧ SeqFinds (Message.isTick (.sequencer 0)) (.tick (.sequencer 0) 1)
      (fun r s => r.state = .tuning ∧ s.params.tuneLimit ≤ r.tuneCount + 1)
    ∧ SeqFinds (Message.isTick (.sequencer 0)) (.tick (.sequencer 0) 1) (fun r s => r.state = .tuning
      ∧ r.tuneCount + 1 < s.params.tuneLimit ∧ r.subPhase ≠ some .blanking)
    ∧ SeqFinds (Message.isTick (.sequencer 0)) (.tick (.sequencer 0) 1) (fun r s => r.state = .tuning
      ∧ r.tuneCount + 1 < s.params.tuneLimit ∧ r.subPhase = some .blanking ∧ r.blankingCount = 0)
    ∧ SeqFinds (Message.isTick (.sequencer 0)) (.tick (.sequencer 0) 1) (fun r s => r.state = .tuning
      ∧ r.tuneCount + 1 < s.params.tuneLimit ∧ r.subPhase = some .blanking ∧ 1 ≤ r.blankingCount ∧ r.lockTx = false)
    ∧ SeqFinds (Message.isTick (.sequencer 0)) (.tick (.sequencer 0) 1) (fun r s => r.state = .tuning
      ∧ r.tuneCount + 1 < s.params.tuneLimit ∧ r.subPhase = some .blanking ∧ 1 ≤ r.blankingCount ∧ r.lockRx = true
      ∧ r.lockTx = true ∧ s.params.settleEpochs ≠ 0)
    ∧ SeqFinds (Message.isTick (.sequencer 0)) (.tick (.sequencer 0) 1) (fun r s => r.state = .tuning
      ∧ r.tuneCount + 1 < s.params.tuneLimit ∧ r.subPhase = some .blanking ∧ 1 ≤ r.blankingCount ∧ r.lockRx = true
      ∧ r.lockTx = true ∧ s.params.settleEpochs = 0) := by
  refine ⟨?_, seqFinds .default (writing 49) ⟨default_lawful, by constructor <;> decide⟩ rfl (by decide),
    seqFinds .default (writing 48) ⟨default_lawful, by constructor <;> decide⟩ rfl (by decide),
    seqFinds .default (blanking 0 true true) ⟨default_lawful, by constructor <;> decide⟩ rfl (by decide),
    seqFinds .default (blanking 1 true false) ⟨default_lawful, by constructor <;> decide⟩ rfl (by decide),
    seqFinds .default (blanking 1 true true) ⟨default_lawful, by constructor <;> decide⟩ rfl (by decide),
    seqFinds noSettling (blanking 1 true true) ⟨noSettling_lawful, by constructor <;> decide⟩ rfl (by decide)⟩
  intro x hx
  fin_cases hx
  · exact seqFinds .default (Channel.atReset true true) ⟨default_lawful, by constructor <;> decide⟩ rfl (by decide)
  · exact seqFinds .default (chan .squelched) ⟨default_lawful, by constructor <;> decide⟩ rfl (by decide)
  · exact seqFinds .default (chan .shutdown) ⟨default_lawful, by constructor <;> decide⟩ rfl (by decide)

theorem witness_SequencerTickInSettlingAndOnAir :
    SeqFinds (Message.isTick (.sequencer 0)) (.tick (.sequencer 0) 1)
      (fun r s => r.state = .settling ∧ r.settleCount + 1 < s.params.settleEpochs)
    ∧ SeqFinds (Message.isTick (.sequencer 0)) (.tick (.sequencer 0) 1) (fun r s => r.state = .settling
      ∧ s.params.settleEpochs ≤ r.settleCount + 1 ∧ r.settlingMean = some 10 ∧ r.entry.squelchOpen ≤ 10)
    ∧ SeqFinds (Message.isTick (.sequencer 0)) (.tick (.sequencer 0) 1) (fun r s => r.state = .settling
      ∧ s.params.settleEpochs ≤ r.settleCount + 1 ∧ r.settlingMean = some 9 ∧ 9 < r.entry.squelchOpen)
    ∧ SeqFinds (Message.isTick (.sequencer 0)) (.tick (.sequencer 0) 1) (fun r s => r.state = .settling
      ∧ s.params.settleEpochs ≤ r.settleCount + 1 ∧ r.settlingMean = none)
    ∧ SeqFinds (Message.isTick (.sequencer 0)) (.tick (.sequencer 0) 1)
      (fun r _ => r.state = .foldback ∧ r.entry.gainMode = .step)
    ∧ SeqFinds (Message.isTick (.sequencer 0)) (.tick (.sequencer 0) 1)
      (fun r _ => r.state = .onAir ∧ r.entry.gainMode = .ramp ∧ r.entry.rampRate = some 50) :=
  ⟨seqFinds .default (settling 18 none) ⟨default_lawful, by constructor <;> decide⟩ rfl (by decide),
    seqFinds .default (settling 19 (some 10)) ⟨default_lawful, by constructor <;> decide⟩ rfl (by decide),
    seqFinds .default (settling 19 (some 9)) ⟨default_lawful, by constructor <;> decide⟩ rfl (by decide),
    seqFinds .default (settling 19 none) ⟨default_lawful, by constructor <;> decide⟩ rfl (by decide),
    seqFinds .default (folded 20 0) ⟨default_lawful, by constructor <;> decide⟩ rfl (by decide),
    seqFinds .default { onAir with entry := ramping } ⟨default_lawful, by constructor <;> decide⟩ rfl (by decide)⟩

/-- The entry changes of the statement: in service with the same frequencies, with another, out of service. -/
theorem witness_EntryChangeActsByStateAndFrequencies :
    SeqFinds (Message.isEntryChange 0) (.entryChange 0 entry0)
      (fun r s => r.state = .off ∧ entry0.service = .inService ∧ s.mode.mode = .operate)
    ∧ SeqFinds (Message.isEntryChange 0) (.entryChange 0 PlanEntry.default)
      (fun r _ => r.state = .off ∧ PlanEntry.default.service = .outOfService)
    ∧ SeqFinds (Message.isEntryChange 0) (.entryChange 0 PlanEntry.default)
      (fun r _ => r.state ≠ .off ∧ PlanEntry.default.service = .outOfService)
    ∧ SeqFinds (Message.isEntryChange 0) (.entryChange 0 { entry0 with txFreq := 30050 }) (fun r _ => r.state ≠ .off
      ∧ r.state ≠ .shutdown ∧ entry0.service = .inService ∧ (30050 : Nat) ≠ r.entry.txFreq)
    ∧ SeqFinds (Message.isEntryChange 0) (.entryChange 0 entry0)
      (fun r _ => r.state = .shutdown ∧ entry0.service = .inService)
    ∧ SeqFinds (Message.isEntryChange 0) (.entryChange 0 { entry0 with squelchSource := some 1 })
      (fun r _ => r.state ≠ .off ∧ r.state ≠ .shutdown ∧ entry0.service = .inService ∧ entry0.rxFreq = r.entry.rxFreq
        ∧ entry0.txFreq = r.entry.txFreq) :=
  ⟨seqFinds .default (Channel.atReset true true) ⟨default_lawful, by constructor <;> decide⟩ rfl (by decide),
    seqFinds .default (Channel.atReset true true) ⟨default_lawful, by constructor <;> decide⟩ rfl (by decide),
    seqFinds .default onAir ⟨default_lawful, by constructor <;> decide⟩ rfl (by decide),
    seqFinds .default onAir ⟨default_lawful, by constructor <;> decide⟩ rfl (by decide),
    seqFinds .default (chan .shutdown) ⟨default_lawful, by constructor <;> decide⟩ rfl (by decide),
    seqFinds .default onAir ⟨default_lawful, by constructor <;> decide⟩ rfl (by decide)⟩

theorem witness_SiteNoticesAndFaultShutdownActByState :
    SeqFinds (Message.beforeSiteStart 0) (.siteStart 0) (fun r _ => r.state = .off ∧ r.entry.service = .inService)
    ∧ SeqFinds (Message.beforeSiteStart 0) (.siteStart 0) (fun r _ => r.state ≠ .off)
    ∧ SeqFinds (Message.isSiteNotice 0) (.siteStop 0) (fun r _ => r.state = .off)
    ∧ SeqFinds (Message.isSiteNotice 0) (.siteStop 0) (fun r _ => r.state ≠ .off)
    ∧ SeqFinds (Message.isFaultShutdown 0) (.faultShutdown 0) (fun r _ => r.state = .off)
    ∧ SeqFinds (Message.isFaultShutdown 0) (.faultShutdown 0) (fun r _ => r.state = .shutdown)
    ∧ SeqFinds (Message.isFaultShutdown 0) (.faultShutdown 0) (fun r _ => r.state ≠ .off ∧ r.state ≠ .shutdown) :=
  ⟨seqFinds .default (chan .off) ⟨default_lawful, by constructor <;> decide⟩ rfl (by decide),
    seqFinds .default onAir ⟨default_lawful, by constructor <;> decide⟩ rfl (by decide),
    seqFinds .default (chan .off) ⟨default_lawful, by constructor <;> decide⟩ rfl (by decide),
    seqFinds .default onAir ⟨default_lawful, by constructor <;> decide⟩ rfl (by decide),
    seqFinds .default (chan .off) ⟨default_lawful, by constructor <;> decide⟩ rfl (by decide),
    seqFinds .default (chan .shutdown) ⟨default_lawful, by constructor <;> decide⟩ rfl (by decide),
    seqFinds .default onAir ⟨default_lawful, by constructor <;> decide⟩ rfl (by decide)⟩

/-- Some running lawful state whose channel 0 meets the hypotheses, before and after a change of its receive lock line. -/
def Locks (asserted : Bool) (H : Channel → State → Prop) : Prop :=
  ∃ s : State, s.SequencersLawful ∧ s.phase = .running ∧ (s.channels.get 0).lock .rx ≠ asserted
    ∧ H ((s.channels.get 0).setLock .rx asserted) s

theorem locks {asserted : Bool} {H : Channel → State → Prop} (k : SequencerParams) (r : Channel)
    (hl : k.Lawful ∧ r.Lawful) (hr : r.lock .rx ≠ asserted) (h : H (r.setLock .rx asserted) (seq k r)) :
    Locks asserted H := by
  refine ⟨seq k r, seq_lawful hl.1 hl.2 _, rfl, ?_, ?_⟩
  · simpa [seq] using hr
  · simpa [seq] using h

theorem witness_LockLineChangeActsByState :
    Locks true (fun r _ => r.state = .off)
    ∧ Locks true (fun r _ => r.state = .tuning ∧ r.subPhase ≠ some .waitingLock)
    ∧ Locks true (fun r _ => r.state ≠ .tuning ∧ true = true)
    ∧ Locks true (fun r s => r.state = .tuning ∧ r.subPhase = some .waitingLock ∧ r.lockRx = true ∧ r.lockTx = true
      ∧ s.params.settleEpochs ≠ 0)
    ∧ Locks true (fun r s => r.state = .tuning ∧ r.subPhase = some .waitingLock ∧ r.lockRx = true ∧ r.lockTx = true
      ∧ s.params.settleEpochs = 0)
    ∧ Locks false (fun r _ => r.state = .foldback ∧ false = false)
    ∧ (∃ s : State, s.phase ≠ .running) ∧ (∃ s : State, (s.channels.get 0).lock .rx = true) :=
  ⟨locks .default (Channel.atReset false false) ⟨default_lawful, by constructor <;> decide⟩ (by decide) (by decide),
    locks .default (blanking 1 false true) ⟨default_lawful, by constructor <;> decide⟩ (by decide) (by decide),
    locks .default { onAir with lockRx := false } ⟨default_lawful, by constructor <;> decide⟩ (by decide) (by decide),
    locks .default (tuning .waitingLock false true) ⟨default_lawful, by constructor <;> decide⟩ (by decide) (by decide),
    locks noSettling (tuning .waitingLock false true) ⟨noSettling_lawful, by constructor <;> decide⟩ (by decide)
      (by decide),
    locks .default (folded 20 7) ⟨default_lawful, by constructor <;> decide⟩ (by decide) (by decide),
    ⟨{ site with phase := .inReset }, by decide⟩, ⟨seq .default onAir, by decide⟩⟩

/-- A record in WRITING whose demanded words are 1200 and 1201. -/
def demanding (rx tx : Bool) : Channel :=
  { tuning .writing true true with demandedRx := 1200, demandedTx := 1201, rxWritten := rx, txWritten := tx }

theorem witness_TuneWriteCompletionMarksSideWritten :
    SeqFinds (Message.isCompletion 0) (.completion ⟨⟨0, .rxSyn⟩, 1200⟩) (fun r _ => r.subPhase ≠ some .writing)
    ∧ SeqFinds (Message.isCompletion 0) (.completion ⟨⟨0, .gain⟩, 100⟩) (fun r _ => r.subPhase = some .writing)
    ∧ SeqFinds (Message.isCompletion 0) (.completion ⟨⟨0, .rxSyn⟩, 1199⟩)
      (fun r _ => r.subPhase = some .writing ∧ (1199 : Nat) ≠ r.demandedRx)
    ∧ SeqFinds (Message.isCompletion 0) (.completion ⟨⟨0, .rxSyn⟩, 1200⟩)
      (fun r _ => r.subPhase = some .writing ∧ (1200 : Nat) = r.demandedRx ∧ r.txWritten = true)
    ∧ SeqFinds (Message.isCompletion 0) (.completion ⟨⟨0, .txSyn⟩, 1201⟩)
      (fun r _ => r.subPhase = some .writing ∧ (1201 : Nat) = r.demandedTx ∧ r.rxWritten = false) :=
  ⟨seqFinds .default onAir ⟨default_lawful, by constructor <;> decide⟩ rfl (by decide),
    seqFinds .default (demanding false false) ⟨default_lawful, by constructor <;> decide⟩ rfl (by decide),
    seqFinds .default (demanding false false) ⟨default_lawful, by constructor <;> decide⟩ rfl (by decide),
    seqFinds .default (demanding false true) ⟨default_lawful, by constructor <;> decide⟩ rfl (by decide),
    seqFinds .default (demanding false false) ⟨default_lawful, by constructor <;> decide⟩ rfl (by decide)⟩

/-- A result with a mean. -/
def mean (q : Quantity) (c : Chan) (m : Int) : WindowResult := ⟨c, q, 0, 64, m, m, m, 64 * m, 0⟩

/-- A record on air with a below-count. -/
def fading (below : Nat) : Channel := { onAir with belowCount := below }

theorem witness_RxResultGovernsSquelch :
    SeqFinds (Message.isResult 0) (.result 0 (mean .rx 1 0)) (fun r _ => (1 : Chan) ≠ r.entry.squelchSource.getD 0)
    ∧ SeqFinds (Message.isResult 0) (.result 0 (mean .rx 0 0)) (fun r _ => r.state = .tuning)
    ∧ SeqFinds (Message.isResult 0) (.result 0 (mean .rx 0 0))
      (fun r _ => (0 : Chan) = r.entry.squelchSource.getD 0 ∧ r.state = .settling)
    ∧ SeqFinds (Message.isResult 0) (.result 0 (mean .rx 0 0))
      (fun r _ => (0 : Chan) = r.entry.squelchSource.getD 0 ∧ r.state = .onAir ∧ r.entry.squelchClose ≤ 0)
    ∧ SeqFinds (Message.isResult 0) (.result 0 (mean .rx 0 (-1))) (fun r _ => (0 : Chan) = r.entry.squelchSource.getD 0
      ∧ r.state = .onAir ∧ -1 < r.entry.squelchClose ∧ r.belowCount + 1 < r.entry.squelchHoldoff)
    ∧ SeqFinds (Message.isResult 0) (.result 0 (mean .rx 0 (-1))) (fun r _ => (0 : Chan) = r.entry.squelchSource.getD 0
      ∧ r.state = .onAir ∧ -1 < r.entry.squelchClose ∧ r.entry.squelchHoldoff ≤ r.belowCount + 1)
    ∧ SeqFinds (Message.isResult 0) (.result 0 (mean .rx 0 9))
      (fun r _ => (0 : Chan) = r.entry.squelchSource.getD 0 ∧ r.state = .squelched ∧ 9 < r.entry.squelchOpen)
    ∧ SeqFinds (Message.isResult 0) (.result 0 (mean .rx 0 10))
      (fun r _ => (0 : Chan) = r.entry.squelchSource.getD 0 ∧ r.state = .squelched ∧ r.entry.squelchOpen ≤ 10) :=
  ⟨seqFinds .default onAir ⟨default_lawful, by constructor <;> decide⟩ rfl (by decide),
    seqFinds .default (writing 0) ⟨default_lawful, by constructor <;> decide⟩ rfl (by decide),
    seqFinds .default (settling 0 none) ⟨default_lawful, by constructor <;> decide⟩ rfl (by decide),
    seqFinds .default (fading 3) ⟨default_lawful, by constructor <;> decide⟩ rfl (by decide),
    seqFinds .default (fading 2) ⟨default_lawful, by constructor <;> decide⟩ rfl (by decide),
    seqFinds .default (fading 3) ⟨default_lawful, by constructor <;> decide⟩ rfl (by decide),
    seqFinds .default (chan .squelched) ⟨default_lawful, by constructor <;> decide⟩ rfl (by decide),
    seqFinds .default (chan .squelched) ⟨default_lawful, by constructor <;> decide⟩ rfl (by decide)⟩

theorem witness_ReflResultActsOnAir :
    SeqFinds (Message.isResult 0) (.result 0 (mean .refl 0 16385)) (fun r _ => r.state ≠ .onAir ∧ r.state ≠ .foldback)
    ∧ SeqFinds (Message.isResult 0) (.result 0 (mean .refl 0 16385)) (fun r s => r.state = .foldback
      ∧ r.entry.reflLimit.getD s.params.reflLimit < 16385 ∧ r.gain ≤ r.fold + s.params.foldbackStep)
    ∧ SeqFinds (Message.isResult 0) (.result 0 (mean .refl 0 16385)) (fun r s => r.state = .onAir
      ∧ r.entry.reflLimit.getD s.params.reflLimit < 16385 ∧ r.fold + s.params.foldbackStep < r.gain ∧ r.fold = 0)
    ∧ SeqFinds (Message.isResult 0) (.result 0 (mean .refl 0 16384))
      (fun r s => r.state = .onAir ∧ 16384 ≤ r.entry.reflLimit.getD s.params.reflLimit)
    ∧ SeqFinds (Message.isResult 0) (.result 0 (mean .refl 0 16384)) (fun r s => r.state = .foldback
      ∧ 16384 ≤ r.entry.reflLimit.getD s.params.reflLimit ∧ r.recoverCount + 1 < s.params.recoverWindows)
    ∧ SeqFinds (Message.isResult 0) (.result 0 (mean .refl 0 16384)) (fun r s => r.state = .foldback
      ∧ 16384 ≤ r.entry.reflLimit.getD s.params.reflLimit ∧ s.params.recoverWindows ≤ r.recoverCount + 1) :=
  ⟨seqFinds .default (chan .squelched) ⟨default_lawful, by constructor <;> decide⟩ rfl (by decide),
    seqFinds .default (folded 80 0) ⟨default_lawful, by constructor <;> decide⟩ rfl (by decide),
    seqFinds .default onAir ⟨default_lawful, by constructor <;> decide⟩ rfl (by decide),
    seqFinds .default onAir ⟨default_lawful, by constructor <;> decide⟩ rfl (by decide),
    seqFinds .default (folded 20 6) ⟨default_lawful, by constructor <;> decide⟩ rfl (by decide),
    seqFinds .default (folded 20 7) ⟨default_lawful, by constructor <;> decide⟩ rfl (by decide)⟩

/-- Parameters with a raised CARRIER_FLOOR. -/
def floored : SequencerParams := { SequencerParams.default with carrierFloor := 5 }

theorem witness_FwdResultActsOnAir :
    SeqFinds (Message.isResult 0) (.result 0 (mean .fwd 0 4))
      (fun r s => r.state = .onAir ∧ r.gain = r.entry.gainTarget ∧ 4 < s.params.carrierFloor)
    ∧ SeqFinds (Message.isResult 0) (.result 0 (mean .fwd 0 5)) (fun _ s => s.params.carrierFloor ≤ 5)
    ∧ SeqFinds (Message.isResult 0) (.result 0 (mean .fwd 0 4)) (fun r _ => r.gain ≠ r.entry.gainTarget) :=
  ⟨seqFinds floored onAir ⟨by constructor <;> decide, by constructor <;> decide⟩ rfl (by decide),
    seqFinds floored onAir ⟨by constructor <;> decide, by constructor <;> decide⟩ rfl (by decide),
    seqFinds floored { onAir with gain := 99, demandedGain := 99 } ⟨by constructor <;> decide, by constructor <;> decide⟩
      rfl (by decide)⟩

/-- Some lawful state in which this is the next request and channel 0's record meets the hypotheses. -/
def SeqMeets (o : Owner) (p : Port) (q : Request) (H : Channel → State → Prop) : Prop :=
  ∃ s s', s.SequencersLawful ∧ Asked o p (some 7) q s s' ∧ H (s.channels.get 0) s

theorem seqMeets {o : Owner} {p : Port} {q : Request} {H : Channel → State → Prop} (s : State) (r : Channel) (hl : r.Lawful)
    (h : H r (sent (.request o p (some 7) q)
      { s with params := .default, channels := Vector.replicate 8 r })) : SeqMeets o p q H := by
  refine ⟨_, _, ⟨default_lawful, fun c => ?_⟩, asked_sent o p q { s with params := .default, channels := Vector.replicate 8 r }, ?_⟩
  · simpa [sent] using hl
  · simpa [sent] using h

/-- A site whose line 7 is a SHUTDOWN line of channel 0, its slot latched. -/
def lineStands : State :=
  { site with
    lines := put site.lines 7 ⟨⟨.activeLow, .edge, .shutdown, 1⟩, true, true⟩
    conditions := { site.conditions with
      slots := put site.conditions.slots 74 ⟨true, 1, some 0, ⟨false, false, false⟩, false⟩ } }

theorem witness_RestartAndReadChannel :
    SeqMeets .sequencerBlock .a (.restartChannel 8) (fun _ _ => 8 ≤ (8 : Byte).toNat)
    ∧ SeqMeets .sequencerBlock .s (.readChannel 255) (fun _ _ => 8 ≤ (255 : Byte).toNat)
    ∧ SeqMeets (.sequencer 0) .s (.readChannel 0) (fun _ _ => (0 : Byte).toNat = (0 : Chan).val)
    ∧ SeqMeets (.sequencer 0) .b (.restartChannel 0) (fun _ s => ¬ Holds s .b)
    ∧ SeqMeets (.sequencer 0) .a (.restartChannel 0) (fun _ s => Holds s .a ∧ s.mode.mode = .standby)
    ∧ SeqMeets (.sequencer 0) .a (.restartChannel 0)
      (fun r s => Holds s .a ∧ s.mode.mode = .operate ∧ r.state ≠ .shutdown)
    ∧ SeqMeets (.sequencer 0) .a (.restartChannel 0) (fun r s => Holds s .a ∧ s.mode.mode = .operate
      ∧ r.state = .shutdown ∧ (s.conditions.slots.get (lineSlot 7)).latched = true
      ∧ (s.lines.get 7).config.action = .shutdown ∧ (s.lines.get 7).config.channels.getLsbD 0 = true
      ∧ ∀ m < (7 : Line), (s.conditions.slots.get (lineSlot m)).latched = false)
    ∧ SeqMeets (.sequencer 0) .a (.restartChannel 0) (fun r s => Holds s .a ∧ s.mode.mode = .operate
      ∧ r.state = .shutdown ∧ ∀ m, (s.conditions.slots.get (lineSlot m)).latched = false) :=
  ⟨seqMeets site onAir (by constructor <;> decide) (by decide), seqMeets site onAir (by constructor <;> decide) (by decide),
    seqMeets site onAir (by constructor <;> decide) (by decide),
    seqMeets site (chan .shutdown) (by constructor <;> decide) (by decide),
    seqMeets home (chan .shutdown) (by constructor <;> decide) (by decide),
    seqMeets site onAir (by constructor <;> decide) (by decide),
    seqMeets lineStands (chan .shutdown) (by constructor <;> decide) (by decide),
    seqMeets site (chan .shutdown) (by constructor <;> decide) (by decide)⟩

/-- The ends of the ranges of the six parameters. -/
theorem witness_SequencerParametersConfigured :
    Meets .sequencerBlock .b (.configure .tuneLimit [1]) (fun s => ¬ Holds s .b)
    ∧ Meets .sequencerBlock .a (.configure .tuneLimit [0]) (fun s => Holds s .a ∧ (0 : Byte).toNat < 1)
    ∧ Meets .sequencerBlock .a (.configure .settleEpochs [0])
      (fun s => Holds s .a ∧ 0 ≤ (0 : Byte).toNat ∧ (0 : Byte).toNat ≤ 255)
    ∧ Meets .sequencerBlock .a (.configure .foldbackStep [61]) (fun s => Holds s .a ∧ 60 < (61 : Byte).toNat)
    ∧ Meets .sequencerBlock .a (.configure .recoverWindows [64])
      (fun s => Holds s .a ∧ 1 ≤ (64 : Byte).toNat ∧ (64 : Byte).toNat ≤ 64)
    ∧ Meets .sequencerBlock .a (.configure .reflLimit [128, 0]) (fun s => Holds s .a)
    ∧ Meets .sequencerBlock .b (.configure .carrierFloor [127, 255]) (fun s => ¬ Holds s .b)
    ∧ Meets .sequencerBlock .s (.readConfig .carrierFloor []) (fun _ => True)
    ∧ Finds (Message.isInitNotice .sequencerBlock) (.initNotice .sequencerBlock) (fun _ => True) :=
  ⟨meets home (by decide), meets home (by decide), meets home (by decide), meets home (by decide), meets home (by decide),
    meets home (by decide), meets home (by decide), meets home trivial, finds home rfl trivial⟩

/-! ## The radio control link -/

/-- Demands beside a queued record of the same target, with a write in flight and without, an empty queue, and demands
of another channel. -/
theorem witness_LinkTakesDemandsAndCompletesWrites :
    Finds Message.isDemands (.demands 0 [⟨⟨0, .gain⟩, 5⟩]) (fun s => s.link.inFlight ≠ none)
    ∧ Finds Message.isDemands (.demands 0 []) (fun s => s.link.queue = [])
    ∧ Finds Message.isDemands (.demands 0 [⟨⟨0, .gain⟩, 5⟩])
      (fun s => s.link.inFlight = none ∧ s.link.queue = [⟨⟨0, .gain⟩, 4⟩])
    ∧ (∃ s : State, s.link.inFlight = none)
    ∧ (∃ s : State, s.link.inFlight = some ⟨⟨7, .gain⟩, 0⟩ ∧ s.link.queue = [])
    ∧ (∃ s : State, s.link.inFlight = some ⟨⟨0, .rxSyn⟩, 0⟩ ∧ s.link.queue = ⟨⟨0, .txSyn⟩, 0⟩ :: resetWrites.drop 2)
    ∧ Finds Message.isDemands (.demands 1 [⟨⟨1, .gain⟩, 5⟩]) (fun _ => (1 : Chan) ≠ 0) :=
  ⟨finds State.reset rfl (by decide), finds site rfl (by decide),
    finds { site with link := ⟨[⟨⟨0, .gain⟩, 4⟩], none⟩ } rfl (by decide), ⟨site, rfl⟩,
    ⟨{ site with link := ⟨[], some ⟨⟨7, .gain⟩, 0⟩⟩ }, by decide⟩, ⟨State.reset, by decide⟩, finds site rfl (by decide)⟩

/-- The first, the last and the first idle period of a write, and the lines at rest (R103). -/
theorem test_linkLines :
    (⟨[], some ⟨⟨7, .gain⟩, 1⟩⟩ : Link).lines 0 = ⟨some ⟨7, .gain⟩, true, false⟩
    ∧ (⟨[], some ⟨⟨7, .gain⟩, 1⟩⟩ : Link).lines 23 = ⟨some ⟨7, .gain⟩, true, true⟩
    ∧ (⟨[], some ⟨⟨7, .gain⟩, 1⟩⟩ : Link).lines 24 = .rest ∧ (⟨[], none⟩ : Link).lines 0 = .rest := by
  decide

/-! ## The level monitor -/

/-- A lone record of the report queue. -/
def report0 : ReportRecord := ⟨0, .rx, false, 0, 0, 0⟩

/-- A site whose channels are on air, with 63 samples of RX in channel 0 and so many reports. -/
def measured (count reports : Nat) (select : Mask24) : State :=
  { seq .default onAir with
    level :=
      { LevelMonitor.atReset with
        meters := Vector.replicate 8 ⟨⟨⟨63, 0, count, some 1, some 1⟩, none⟩, Meter.empty, Meter.empty⟩
        reports := List.replicate reports report0
        reportSelect := select } }

/-- The site while a word that began before the end of the reset is still under way. -/
def straddled : State := { site with level := { site.level with straddling := true } }

theorem witness_SampleArrivalFillsAccumulatorAndCompletesWindow :
    (∃ s : State, s.phase = .running ∧ s.level.straddling = false ∧ (List.replicate 23 true).length < 24)
    ∧ ((15 : Nat) < 16 ∧ (3 : Nat) < 16 ∧ (65535 : Nat) < 65536 ∧ (8 ≤ 15 ∨ 3 ≤ 3))
    ∧ (home.phase = .running ∧ home.level.straddling = false ∧ (home.channels.get 0).state = .off)
    ∧ (∀ x ∈ [(62, 0), (63, 0)], (measured x.1 0 0).phase = .running ∧ (measured x.1 0 0).level.straddling = false
      ∧ ((measured x.1 0 0).channels.get 0).state ≠ .off ∧ (measured x.1 0 0).level.selects 0 .rx = false
      ∧ ((((measured x.1 0 0).level.meter 0 .rx).acc.add 1).count = (measured x.1 0 0).level.windowLength ↔ x.1 = 63))
    ∧ (∀ n ∈ [23, 47, 48], (measured 63 n 1).level.selects 0 .rx = true ∧ (measured 63 n 1).level.reports.length = n)
    ∧ ((-32768 : Int) ≤ -32768 ∧ (-32768 : Int) ≤ 32767 ∧ (-8388608 : Int) ≤ -8388608 ∧ (-8388608 : Int) ≤ 8388607)
    ∧ (straddled.phase = .running ∧ straddled.level.straddling = true)
    ∧ (∃ s : State, s.phase ≠ .running) := by
  refine ⟨⟨site, by decide⟩, by decide, by decide, by decide, by decide, by decide, by decide,
    ⟨{ site with phase := .inReset }, by decide⟩⟩

/-- A word of 24 edges of which 10 came before the end of the reset is short, and the next word is whole (R125). -/
theorem test_straddlingWord :
    exec (.sampleArrival ⟨List.replicate 10 true, List.replicate 14 true⟩) straddled
      = .next (site.report .sampleTagError) := by
  rfl

/-- The sum wraps one below -2^23 and one above 2^23 - 1 (R113). -/
theorem test_sumWraps :
    (Accumulator.add (-1) ⟨-8388608, 0, 1, some 0, some 0⟩).sum = 8388607
    ∧ (Accumulator.add (-1) ⟨-8388608, 0, 1, some 0, some 0⟩).wraps = -1
    ∧ (Accumulator.add 1 ⟨8388607, 0, 1, some 0, some 0⟩).sum = -8388608
    ∧ (Accumulator.add 1 ⟨8388607, 0, 1, some 0, some 0⟩).wraps = 1 := by
  decide

/-- One delivery to the channel of the result and one to each channel that names it as its source (R116). -/
theorem test_deliveries (w : WindowResult) (hc : w.channel = 0) (hq : w.quantity = .rx) :
    (seq .default (Channel.atReset true true)).deliveries w = [.result 0 w]
    ∧ State.deliveries
        { site with channels := put site.channels 7 { onAir with entry := { entry0 with squelchSource := some 0 } } } w
      = [.result 0 w, .result 7 w] := by
  obtain ⟨c, q, stamp, count, mean, low, high, sum, wraps⟩ := w
  subst hc hq
  exact ⟨rfl, rfl⟩

/-- A mean is rounded toward 0 (R114). -/
theorem test_meanTowardZero :
    (Accumulator.result 0 .rx 0 ⟨-7, 0, 2, some 0, some 0⟩).mean = -3
    ∧ (Accumulator.result 0 .rx 0 ⟨7, 0, 2, some 0, some 0⟩).mean = 3 := by
  decide

theorem witness_OffNoticeReportsAndLevelInitialize :
    Finds (Message.isOffNotice 7) (.offNotice 7) (fun _ => True)
    ∧ Meets .level .s (.readReports 0) (fun _ => 0 = 0)
    ∧ Meets .level .s (.readReports 9) (fun _ => 8 < 9)
    ∧ Meets .level .s (.readReports 8) (fun s => 1 ≤ 8 ∧ 8 ≤ 8 ∧ s.level.reports.length = 9)
    ∧ Meets .level .b .flushReports (fun s => ¬ Holds s .b)
    ∧ Meets .level .a .flushReports (fun s => Holds s .a)
    ∧ Finds (Message.isInitNotice .levelMonitor) (.initNotice .levelMonitor) (fun _ => True) :=
  ⟨finds site rfl trivial, meets site (by decide), meets site (by decide), meets (measured 0 9 0) (by decide),
    meets site (by decide), meets site (by decide), finds site rfl trivial⟩

theorem witness_MeasurementConfiguredAndRead :
    Meets .level .b (.configure .windowLength [0, 1]) (fun s => ¬ Holds s .b)
    ∧ Meets .level .a (.configure .sampleFormat [1]) (fun s => Holds s .a ∧ s.mode.mode = .operate)
    ∧ Meets .level .a (.configure .windowLength [4, 1]) (fun s => Holds s .a ∧ s.mode.mode = .standby
      ∧ s.level.withWindowLength 1025 = none)
    ∧ Meets .level .a (.configure .sampleFormat [1]) (fun s => Holds s .a ∧ s.mode.mode = .standby
      ∧ (s.channels.get 0).state ≠ .off)
    ∧ Meets .level .a (.configure .windowLength [4, 0]) (fun s => Holds s .a ∧ s.mode.mode = .standby
      ∧ (s.channels.get 0).state = .off ∧ (s.level.meter 0 .rx).acc ≠ ⟨0, 0, 0, none, none⟩)
    ∧ Meets .level .a (.configure .windowLength [4, 0]) (fun s => Holds s .a ∧ s.mode.mode = .standby
      ∧ s.level.withWindowLength 1024 ≠ none ∧ ∀ d, (s.channels.get d).state = .off
        ∧ (s.level.meter d .rx).acc = ⟨0, 0, 0, none, none⟩ ∧ (s.level.meter d .fwd).acc = ⟨0, 0, 0, none, none⟩
        ∧ (s.level.meter d .refl).acc = ⟨0, 0, 0, none, none⟩)
    ∧ Meets .level .a (.configure .reportSelect [255, 255, 255]) (fun s => Holds s .a)
    ∧ Meets .level .b (.configure .reportSelect [0, 0, 1]) (fun s => ¬ Holds s .b) :=
  ⟨meets site (by decide), meets site (by decide), meets home (by decide),
    meets { home with channels := Vector.replicate 8 onAir } (by decide),
    meets { home with level := (measured 1 0 0).level } (by decide), meets home (by decide), meets site (by decide),
    meets site (by decide)⟩

/-- R124 beside an untaken OFF notice whose channel is OFF with empty accumulators (log entry 35): the item is set, and the
latest result stays present until the notice is taken. -/
theorem test_configureBesideUntakenOffNotice :
    let meters := put home.level.meters 7 ⟨⟨.empty, some ⟨7, .rx, 4, 64, 5, 5, 5, 320, 0⟩⟩, .empty, .empty⟩
    let s : State := { home with level := { home.level with meters := meters }, transit := [.offNotice 7] }
    let t := (setMeasurement .windowLength [4, 0] (s.level.withWindowLength 1024) s).2
    t.level.windowLength = 1024 ∧ (t.level.meter 7 .rx).latest.isSome = true ∧ t.transit = [.offNotice 7] := by decide

theorem witness_ThresholdConfiguredAndResultsRead :
    Meets .level .b (.configure .reportThreshold [1]) (fun s => ¬ Holds s .b)
    ∧ Meets .level .a (.configure .reportThreshold [0]) (fun s => Holds s .a ∧ (0 : Byte) = 0)
    ∧ Meets .level .a (.configure .reportThreshold [49]) (fun s => Holds s .a ∧ 48 < (49 : Byte).toNat)
    ∧ Meets .level .a (.configure .reportThreshold [48])
      (fun s => Holds s .a ∧ (48 : Byte) ≠ 0 ∧ (48 : Byte).toNat ≤ 48)
    ∧ Meets .level .s (.readConfig .reportSelect []) (fun _ => True)
    ∧ Meets .level .s (.readConfig .latestResult [8, 0]) (fun _ => 8 ≤ (8 : Byte).toNat)
    ∧ Meets .level .s (.readConfig .latestResult [7, 3]) (fun _ => (7 : Byte).toNat < 8 ∧ 3 ≤ (3 : Byte).toNat)
    ∧ Meets .level .s (.readConfig .latestResult [7, 2])
      (fun _ => (7 : Byte).toNat = (7 : Chan).val ∧ (2 : Byte).toNat = Quantity.refl.number) :=
  ⟨meets site (by decide), meets site (by decide), meets site (by decide), meets site (by decide), meets site trivial,
    meets site (by decide), meets site (by decide), meets site (by decide)⟩

/-! ## Site modes -/

/-- A site in STANDBY one of whose lines is a STANDBY line, asserted or with its slot latched. -/
def standbyLine (filteredHigh latched : Bool) : State :=
  { home with
    lines := put home.lines 7 ⟨⟨.activeLow, .edge, .standby, 0⟩, filteredHigh, filteredHigh⟩
    conditions := { home.conditions with
      slots := put home.conditions.slots 74 ⟨latched, 1, some 0, ⟨false, false, false⟩, false⟩ } }

/-- A site in STANDBY whose channel 7 has not taken its site stop. -/
def unstopped (x : ChannelState) : State :=
  { home with channels := put home.channels 7 (chan x) }

theorem witness_SetModeOperateExaminedAndEntered :
    Meets .mode .b (.setMode 1) (fun s => 1 ≠ 0 ∧ ¬ Holds s .b)
    ∧ Meets .mode .a (.setMode 2) (fun s => 2 ≤ 2 ∧ Holds s .a)
    ∧ Meets .mode .a (.setMode 1) (fun s => Holds s .a ∧ s.mode.mode = .operate)
    ∧ Meets .mode .a (.setMode 1) (fun s => Holds s .a ∧ s.mode.mode = .standby ∧ s.mode.awaited ≠ [])
    ∧ Meets .mode .a (.setMode 1)
      (fun s => Holds s .a ∧ s.mode.mode = .standby ∧ s.mode.awaited = [] ∧ s.licence.storeState = .erasing)
    ∧ Meets .mode .a (.setMode 1)
      (fun s => Holds s .a ∧ s.mode.mode = .standby ∧ s.mode.awaited = [] ∧ s.licence.storeState = .incomplete)
    ∧ Meets .mode .a (.setMode 1) (fun s => Holds s .a ∧ s.mode.mode = .standby ∧ s.mode.awaited = []
      ∧ s.licence.storeState = .protected_ ∧ (s.lines.get 7).config.action = .standby ∧ (s.lines.get 7).asserted = true
      ∧ ∀ m < (7 : Line), (s.lines.get m).config.action ≠ .standby)
    ∧ Meets .mode .a (.setMode 1) (fun s => Holds s .a ∧ s.mode.mode = .standby ∧ s.mode.awaited = []
      ∧ s.licence.storeState = .protected_ ∧ (∀ m, (s.lines.get m).config.action = .standby →
        (s.lines.get m).asserted = false ∧ (s.conditions.slots.get (lineSlot m)).latched = false)
      ∧ s.validate s.plan.active = some (.refused .licence .gainCeiling 7))
    ∧ Meets .mode .a (.setMode 1) (fun s => Holds s .a ∧ s.mode.mode = .standby ∧ s.mode.awaited = []
      ∧ s.licence.storeState = .protected_ ∧ (∀ m, (s.lines.get m).config.action = .standby →
        (s.lines.get m).asserted = false ∧ (s.conditions.slots.get (lineSlot m)).latched = false)
      ∧ s.validate s.plan.active = none
      ∧ ∀ c, (s.channels.get c).state ≠ .onAir ∧ (s.channels.get c).state ≠ .foldback)
    ∧ (∀ x ∈ [ChannelState.onAir, .foldback], Meets .mode .a (.setMode 1) (fun s => Holds s .a ∧ s.mode.mode = .standby
      ∧ s.mode.awaited = [] ∧ s.licence.storeState = .protected_ ∧ (∀ m, (s.lines.get m).config.action = .standby →
        (s.lines.get m).asserted = false ∧ (s.conditions.slots.get (lineSlot m)).latched = false)
      ∧ s.validate s.plan.active = none ∧ (s.channels.get 7).state = x)) :=
  ⟨meets home (by decide), meets home (by decide), meets site (by decide),
    meets { home with mode := ⟨.standby, .reset, [.levelMonitor]⟩ } (by decide), meets (store .erasing home) (by decide),
    meets (store .incomplete home) (by decide), meets (standbyLine false false) (by decide),
    meets { home with plan := { home.plan with active := table raw1.toEntry } } (by decide),
    meets (standbyLine true false) (by decide), fun x hx => meets (unstopped x) (by revert x; decide)⟩

/-- A SET MODE (OPERATE) that would enter waits while a channel is on air, and not for one in SQUELCHED (R129, log entry 31). -/
theorem test_entryWaits :
    exec (.setModeOperate .a) (sent (.request .mode .a (some 7) (.setMode 1)) (unstopped .onAir))
      = .next (sent (.request .mode .a (some 7) (.setMode 1)) (unstopped .onAir))
    ∧ (unstopped .squelched).entryWaits .a = false := by
  exact ⟨rfl, by decide⟩

theorem witness_WaysIntoStandby :
    (∀ m ∈ [home, site], Meets .mode .a (.setMode 0) (fun s => Holds s .a ∧ s.mode.mode = m.mode.mode))
    ∧ (∀ m ∈ [home, site], Meets .mode .s .siteStandby (fun s => s.mode.mode = m.mode.mode))
    ∧ (∀ m ∈ [home, site], Finds (Message.isFaultStandby 7) (.faultStandby 7) (fun s => s.mode.mode = m.mode.mode)) := by
  refine ⟨fun m h => ?_, fun m h => ?_, fun m h => ?_⟩
  all_goals
    simp only [List.mem_cons, List.not_mem_nil, or_false] at h
    rcases h with rfl | rfl
  · exact meets home ⟨rfl, rfl⟩
  · exact meets site ⟨rfl, rfl⟩
  · exact meets home rfl
  · exact meets site rfl
  · exact finds home rfl rfl
  · exact finds site rfl rfl

theorem witness_InitializeSendsNoticesAndAwaitsReports :
    Meets .mode .b .initializeSite (fun s => ¬ Holds s .b)
    ∧ Meets .mode .a .initializeSite (fun s => Holds s .a ∧ s.mode.mode = .operate)
    ∧ Meets .mode .a .initializeSite (fun s => Holds s .a ∧ s.mode.mode = .standby ∧ s.mode.awaited ≠ [])
    ∧ Meets .mode .a .initializeSite (fun s => Holds s .a ∧ s.mode.mode = .standby ∧ s.mode.awaited = [])
    ∧ Finds (Message.isInitReport .levelMonitor) (.initReport .levelMonitor) (fun s => s.mode.awaited = [.levelMonitor])
    ∧ Meets .mode .b (.setMode 0) (fun s => 0 ≠ 1 ∧ ¬ Holds s .b)
    ∧ Meets .mode .a (.setMode 2) (fun s => 2 ≠ 1 ∧ Holds s .a ∧ 2 ≤ 2) :=
  ⟨meets home (by decide), meets site (by decide),
    meets { home with mode := ⟨.standby, .reset, [.levelMonitor]⟩ } (by decide), meets home (by decide),
    finds { home with mode := ⟨.standby, .reset, [.levelMonitor]⟩ } rfl (by decide), meets home (by decide),
    meets home (by decide)⟩

/-! ## Fault lines -/

/-- A line's pin and filtered level apart, under each polarity and each action. -/
theorem witness_FilteredLevelAssertsAndDeassertsLine :
    (home.phase = .running ∧ (home.lines.get 0).pinHigh = (home.lines.get 0).filteredHigh)
    ∧ ∀ polarity ∈ [Polarity.activeLow, .activeHigh], ∀ action ∈ [LineAction.report, .shutdown, .standby],
      ∀ high ∈ [true, false], ∃ s : State, s.phase = .running ∧ (s.lines.get 7).pinHigh ≠ (s.lines.get 7).filteredHigh
        ∧ (s.lines.get 7).config.polarity = polarity ∧ (s.lines.get 7).config.action = action
        ∧ (s.lines.get 7).pinHigh = high := by
  refine ⟨by decide, fun polarity _ action _ high _ => ?_⟩
  refine ⟨{ home with lines := put home.lines 7 ⟨⟨polarity, .edge, action, 255⟩, !high, high⟩ }, rfl, ?_, ?_, ?_, ?_⟩
  all_goals simp

theorem witness_LineConfiguredReadAndInitialized :
    Meets .faultLines .b (.configure .line [7, 0, 0, 0, 0]) (fun s => ¬ Holds s .b)
    ∧ Meets .faultLines .a (.configure .line [7, 0, 0, 0, 0]) (fun s => Holds s .a ∧ s.mode.mode = .operate)
    ∧ Meets .faultLines .a (.configure .line [8, 0, 0, 0, 0])
      (fun s => Holds s .a ∧ s.mode.mode = .standby ∧ 8 ≤ (8 : Byte).toNat)
    ∧ Meets .faultLines .a (.configure .line [7, 1, 1, 3, 0])
      (fun s => Holds s .a ∧ s.mode.mode = .standby ∧ (7 : Byte).toNat < 8 ∧ 3 ≤ (3 : Byte).toNat)
    ∧ (∀ k ∈ [Polarity.activeLow, .activeHigh], Meets .faultLines .a (.configure .line [7, k.code, 1, 2, 255])
      (fun s => Holds s .a ∧ s.mode.mode = .standby ∧ (7 : Byte).toNat = (7 : Line).val
        ∧ (1 : Byte) = Sensitivity.edgeAndLevel.code ∧ (2 : Byte) = LineAction.standby.code
        ∧ (s.lines.get 7).asserted = false
        ∧ (FaultLine.asserted ⟨⟨k, .edgeAndLevel, .standby, 255⟩, true, true⟩ = true ↔ k = .activeHigh)))
    ∧ Meets .faultLines .a (.configure .line [7, 1, 0, 0, 0]) (fun s => Holds s .a ∧ s.mode.mode = .standby
      ∧ (s.lines.get 7).asserted = true ∧ FaultLine.asserted ⟨⟨.activeHigh, .edge, .report, 0⟩, false, false⟩ = false)
    ∧ Meets .faultLines .s (.readConfig .line [8]) (fun _ => 8 ≤ (8 : Byte).toNat)
    ∧ Meets .faultLines .s (.readConfig .line [7]) (fun _ => (7 : Byte).toNat = (7 : Line).val)
    ∧ Finds (Message.isInitNotice .faultLineMonitor) (.initNotice .faultLineMonitor) (fun _ => True) := by
  refine ⟨meets home (by decide), meets site (by decide), meets home (by decide), meets home (by decide), fun k _ => ?_,
    meets (standbyLine false false) (by decide), meets home (by decide), meets home (by decide), finds home rfl trivial⟩
  exact meets home (by cases k <;> decide)

/-! ## Conditions and attention -/

/-- A site with slot 74, of line 7, latched and read by Port A; the line's sensitivity and filtered level given. -/
def latched (pending : Bool) (k : Sensitivity) (filteredHigh : Bool) : State :=
  { site with
    lines := put site.lines 7 ⟨⟨.activeLow, k, .report, 0⟩, filteredHigh, filteredHigh⟩
    conditions := { site.conditions with
      slots := put site.conditions.slots 74 ⟨true, 255, some 0, ⟨true, false, false⟩, pending⟩ } }

theorem latched_lawful (pending : Bool) (k : Sensitivity) (high : Bool) : (latched pending k high).conditions.Lawful := by
  refine ⟨fun i => ?_, fun p => ?_⟩
  · simp only [latched, put_get]
    split
    · rename_i h
      subst h
      constructor <;> simp
    · simp only [site, home, ready, State.reset, ConditionTable.atReset, replicate_get]
      constructor <;> simp [Slot.clear]
  · cases p <;>
      simp [latched, site, home, ready, State.reset, ConditionTable.atReset, ConditionTable.attention, Attention.atReset]

theorem witness_OccurrenceLatchesAndDeassertionClears :
    Finds (Message.concernsSlot 74) (.occurrence 74) (fun s => (s.conditions.slots.get 74).occurrences = 255)
    ∧ Finds (Message.concernsSlot (lineSlot 7)) (.deassertion 7)
      (fun s => s.conditions.Lawful ∧ (s.conditions.slots.get (lineSlot 7)).clearPending = false)
    ∧ Finds (Message.concernsSlot (lineSlot 7)) (.deassertion 7)
      (fun s => s.conditions.Lawful ∧ (s.conditions.slots.get (lineSlot 7)).clearPending = true) :=
  ⟨finds (latched true .edgeAndLevel false) rfl (by decide),
    finds (latched false .edge true) rfl ⟨latched_lawful false .edge true, by decide⟩,
    finds (latched true .edgeAndLevel true) rfl ⟨latched_lawful true .edgeAndLevel true, by decide⟩⟩

theorem witness_ConditionsReadAndCleared :
    Meets .conditions .a (.readConditions 75) (fun _ => 75 ≤ 75)
    ∧ Meets .conditions .a (.readConditions 74) (fun s => 74 < 75 ∧ (s.conditions.slots.get 74).latched = true)
    ∧ Meets .conditions .a (.clearConditions (List.replicate 17 0)) (fun _ => 16 < (List.replicate 17 (0 : Byte)).length)
    ∧ Meets .conditions .a (.clearConditions [75]) (fun _ => [(75 : Byte)].length ≤ 16 ∧ ∃ b ∈ [(75 : Byte)], 75 ≤ b.toNat)
    ∧ Meets .conditions .a (.clearConditions []) (fun s => s.conditions.Lawful)
    ∧ Meets .conditions .b (.clearConditions [74])
      (fun s => (74 : Byte).toNat = (74 : SlotNo).val ∧ (s.conditions.slots.get 74).seenBy.has .b = false)
    ∧ Meets .conditions .a (.clearConditions [74]) (fun s => (s.conditions.slots.get 74).latched = true
      ∧ (s.conditions.slots.get 74).seenBy.has .a = true ∧ (74 : SlotNo) = lineSlot 7
      ∧ (s.lines.get 7).config.sensitivity = .edgeAndLevel ∧ (s.lines.get 7).asserted = true)
    ∧ Meets .conditions .a (.clearConditions [74]) (fun s => (s.conditions.slots.get 74).latched = true
      ∧ (s.conditions.slots.get 74).seenBy.has .a = true ∧ ∀ l : Line, (74 : SlotNo) = lineSlot l →
        (s.lines.get l).config.sensitivity = .edge ∨ (s.lines.get l).asserted = false)
    ∧ (∃ results slots, (results, slots) = [(74 : SlotNo), 3, 74].foldl
        (fun x i =>
          (x.1 ++ [BitVec.ofNat 8 i.val, (clearOne site.lines .a i (x.2.get i)).1.code],
            put x.2 i (clearOne site.lines .a i (x.2.get i)).2))
        (([] : List Byte), site.conditions.slots))
    ∧ Meets .conditions .a (.clearConditions (List.replicate 16 74)) (fun _ =>
      List.replicate 16 (74 : Byte) = (List.replicate 16 (74 : SlotNo)).map (fun i => BitVec.ofNat 8 i.val)
        ∧ (List.replicate 16 (74 : SlotNo)).length ≤ 16) :=
  ⟨meets site (by decide), meets (latched false .edge true) (by decide), meets site (by decide), meets site (by decide),
    meets (latched false .edge true) (latched_lawful false .edge true), meets (latched false .edge true) (by decide),
    meets (latched false .edgeAndLevel false) (by decide), meets (latched false .edgeAndLevel true) (by decide),
    ⟨_, _, rfl⟩, meets site (by decide)⟩

/-- A slot listed twice is cleared by its first entry and not cleared by its second; a slot that is not latched is not
cleared (R163). -/
theorem test_clearTwice :
    (clearAll (latched false .edge true).lines .a [74, 3, 74] (latched false .edge true).conditions.slots).1
      = [74, 0, 3, 2, 74, 2] := by
  decide

/-- A slot already clear-pending is judged anew: held by its line it stays, its line found deasserted or EDGE it is cleared
(R163, log entry 33). -/
theorem test_clearPendingAgain :
    (clearAll (latched true .edgeAndLevel false).lines .a [74] (latched true .edgeAndLevel false).conditions.slots).1 = [74, 1]
    ∧ (clearAll (latched true .edgeAndLevel true).lines .a [74] (latched true .edgeAndLevel true).conditions.slots).1 = [74, 0]
    ∧ (clearAll (latched true .edge false).lines .a [74] (latched true .edge false).conditions.slots).1 = [74, 0] := by
  decide

/-- The numbers of R158's own examples: channel 0 at 11 to 17, channel 7 at 60 to 66, FL2 at 69. -/
theorem test_slotNumbers :
    ChannelKind.slot .lockTimeout 0 = 11 ∧ ChannelKind.slot .noCarrier 0 = 17 ∧ ChannelKind.slot .lockTimeout 7 = 60
    ∧ ChannelKind.slot .noCarrier 7 = 66 ∧ lineSlot 2 = 69 ∧ kindOf 10 = 10 ∧ kindOf 11 = 11 ∧ kindOf 66 = 17
    ∧ kindOf 67 = 18 ∧ kindOf 74 = 18 := by
  decide

theorem witness_AttentionSetAcknowledgedAndInitialized :
    Meets .conditions .a (.setAttention 0x080000 0) (fun _ => ∃ k, 19 ≤ k ∧ (0x080000 : Mask24).getLsbD k = true)
    ∧ Meets .conditions .a (.setAttention 0x07FFFF 2)
      (fun _ => (∀ k, 19 ≤ k → (0x07FFFF : Mask24).getLsbD k = false) ∧ 2 ≤ 2)
    ∧ Meets .conditions .a (.setAttention 0x07FFFF 1) (fun s => (∀ k, 19 ≤ k → (0x07FFFF : Mask24).getLsbD k = false)
      ∧ s.conditions.Lawful)
    ∧ Meets .conditions .s .acknowledge (fun s => s.conditions.Lawful)
    ∧ Finds (Message.isInitNotice .conditionTable) (.initNotice .conditionTable) (fun _ => True) := by
  have h : ∀ k, 19 ≤ k → (0x07FFFF : Mask24).getLsbD k = false := by
    intro k hk
    exact Nat.testBit_lt_two_pow (lt_of_lt_of_le (show 0x07FFFF < 2 ^ 19 by decide) (Nat.pow_le_pow_right (by decide) hk))
  exact ⟨meets site ⟨19, by decide, by decide⟩, meets site ⟨h, by decide⟩,
    meets (latched false .edge true) ⟨h, latched_lawful false .edge true⟩, meets (latched false .edge true) (latched_lawful false .edge true),
    finds site rfl trivial⟩

/-! ## Ports and frames -/

/-- IDENTIFY to unit 3 with tag 5, the manual's check value (R171), and the catalogue's published CRC-8 of the digits. -/
theorem test_frame : buildFrame 0x30 0x05 0x01 [] = [0x30, 0x05, 0x01, 0x00, 0x7C]
    ∧ crc8 [0x31, 0x32, 0x33, 0x34, 0x35, 0x36, 0x37, 0x38, 0x39] = 0xF4 := by
  decide +kernel

/-- A site at unit address 3, no select period open and the Port S receiver ready. -/
def listening : State :=
  { home with ports := { home.ports with
      unitAddress := 3
      s := { home.ports.s with receiver := .ready } } }

/-- Bytes on a port complete this frame. -/
def Frames (p : Port) (bytes f : List Byte) (H : State → Prop) : Prop :=
  ∃ s i, s.phase = .running ∧ s.ports.bytes p bytes = (i, some f) ∧ H s

theorem frames {p : Port} {bytes f : List Byte} {H : State → Prop} (s : State) (hr : s.phase = .running)
    (h : (s.ports.bytes p bytes).2 = some f) (hs : H s) : Frames p bytes f H :=
  ⟨s, (s.ports.bytes p bytes).1, hr, by rw [← h], hs⟩

/-- A frame with each fault of judgement; a request during the load; each way a request is taken; a broadcast. -/
theorem witness_CompleteFrameJudgedAndTaken :
    Frames .a [1, 0x30, 5, 0x10, 0, 0] [0x30, 5, 0x10, 0, 0] (fun _ => crc8 [0x30, 5, 0x10, 0] ≠ 0)
    ∧ Frames .s (buildFrame 0x38 5 0x10 []) (buildFrame 0x38 5 0x10 [])
      (fun _ => (0x38 : Byte).extractLsb' 0 4 ≠ 0)
    ∧ Frames .b (1 :: buildFrame 0xF0 5 0x31 []) (buildFrame 0xF0 5 0x31 [])
      (fun _ => (0xF0 : Byte).extractLsb' 4 4 = 15 ∧ Port.b ≠ .s)
    ∧ Frames .a (1 :: buildFrame 0x40 5 0x10 []) (buildFrame 0x40 5 0x10 [])
      (fun s => (0x40 : Byte).extractLsb' 4 4 ≠ 15 ∧ (0x40 : Byte).extractLsb' 4 4 ≠ s.ports.unitAddress)
    ∧ Frames .a (1 :: buildFrame 0x30 5 0x10 []) (buildFrame 0x30 5 0x10 [])
      (fun s => s.ports.unitAddress = 3 ∧ s.licence.loading = true)
    ∧ Frames .a (1 :: buildFrame 0x30 5 0xFE []) (buildFrame 0x30 5 0xFE [])
      (fun s => s.licence.loading = false ∧ parseRequest 0xFE [] = .unknown)
    ∧ Frames .b (1 :: buildFrame 0x30 5 0x01 [9]) (buildFrame 0x30 5 0x01 [9])
      (fun s => s.licence.loading = false ∧ parseRequest 0x01 [9] = .malformed)
    ∧ Frames .s (buildFrame 0x30 5 0x10 []) (buildFrame 0x30 5 0x10 [])
      (fun s => s.licence.loading = false ∧ ∃ o q, parseRequest 0x10 [] = .request o q)
    ∧ Frames .s (buildFrame 0x30 5 0x01 []) (buildFrame 0x30 5 0x01 []) (fun s => s.licence.loading = false)
    ∧ Frames .a (1 :: buildFrame 0x30 5 0x02 []) (buildFrame 0x30 5 0x02 []) (fun s => s.licence.loading = false)
    ∧ Frames .s (buildFrame 0xF0 5 0x31 []) (buildFrame 0xF0 5 0x31 []) (fun s => s.licence.loading = false)
    ∧ Frames .s (buildFrame 0xF0 5 0x30 [1]) (buildFrame 0xF0 5 0x30 [1]) (fun _ => (0x30 : Byte) ≠ 0x31) :=
  ⟨frames listening rfl (by decide +kernel) (by decide +kernel), frames listening rfl (by decide +kernel) (by decide),
    frames listening rfl (by decide +kernel) (by decide), frames listening rfl (by decide +kernel) (by decide),
    frames { listening with licence := { listening.licence with loading := true } } rfl (by decide +kernel) (by decide),
    frames listening rfl (by decide +kernel) (by decide), frames listening rfl (by decide +kernel) (by decide),
    frames listening rfl (by decide +kernel) ⟨rfl, _, _, rfl⟩, frames listening rfl (by decide +kernel) (by decide),
    frames listening rfl (by decide +kernel) (by decide), frames listening rfl (by decide +kernel) (by decide),
    frames listening rfl (by decide +kernel) (by decide)⟩

/-- A request whose item is reserved. -/
theorem witness_BadItem : ∃ code payload, Frames .a (1 :: buildFrame 0x30 5 code payload) (buildFrame 0x30 5 code payload)
    (fun s => s.licence.loading = false ∧ parseRequest code payload = .badItem) :=
  ⟨0x33, [0x0F], frames listening rfl (by decide +kernel) (by decide)⟩

/-- A site start waits for the entry change sent before it, a site stop does not; the deassertion of a line waits for the
occurrence of its assertion, and not for another slot's (R90, R161). -/
theorem test_takenInOrder (e : PlanEntry) :
    ({ site with transit := [.entryChange 1 e, .entryChange 0 e, .siteStart 0] } : State).take (Message.beforeSiteStart 0)
        = some (.entryChange 0 e, { site with transit := [.entryChange 1 e, .siteStart 0] })
    ∧ ({ site with transit := [.entryChange 0 e, .siteStop 0, .siteStart 0] } : State).take (Message.isSiteNotice 0)
        = some (.siteStop 0, { site with transit := [.entryChange 0 e, .siteStart 0] })
    ∧ ({ site with transit := [.occurrence 73, .occurrence 74, .deassertion 7] } : State).take (Message.concernsSlot 74)
        = some (.occurrence 74, { site with transit := [.occurrence 73, .deassertion 7] }) :=
  ⟨rfl, rfl, rfl⟩

/-- Requests of one port and owner are taken in the order sent (R172). -/
theorem test_requestsInOrder :
    Asked .mode .a (some 2) (.setMode 1)
      { home with transit := [.request .mode .b (some 1) (.setMode 0), .request .plan .a (some 1) .disarm,
          .request .mode .a (some 2) (.setMode 1), .request .mode .a (some 3) .siteStandby] }
      { home with transit := [.request .mode .b (some 1) (.setMode 0), .request .plan .a (some 1) .disarm,
          .request .mode .a (some 3) .siteStandby] } := by
  rfl

/-- Port states of the events of the ports. -/
def withPeriod (x : SelectPeriod) : State := { home with ports := { home.ports with a := ⟨x, none⟩, b := ⟨x, some []⟩ } }

def withS (r : ReceiverS) (t : Option Transmission) (w : Option (List Byte)) : State :=
  { home with ports := { home.ports with s := ⟨r, t, w⟩ } }

theorem witness_PortsReceiveAndTransmit :
    ((withPeriod .closed).phase = .running ∧ ∀ p, ((withPeriod .closed).ports.sync p).period = .closed)
    ∧ listening.ports.s.receiver = .ready
    ∧ ((withPeriod (.write [0x30, 5, 1])).phase = .running
      ∧ (withPeriod (.write [0x30, 5, 1])).ports.a.period = .write [0x30, 5, 1]
      ∧ (withPeriod (.write [0x30, 5, 1])).ports.b.period = .write [0x30, 5, 1]
      ∧ 60 < (61 : Byte).toNat ∧ [(0x30 : Byte), 5, 1].length = 3)
    ∧ (withS (.inFrame [0x30, 5, 1]) none none).ports.s.receiver = .inFrame [0x30, 5, 1]
    ∧ (∀ started w, (withS .ready (some ⟨[1], started⟩) w).phase = .running
      ∧ (withS .ready (some ⟨[1], started⟩) w).ports.s.transmitting = some ⟨[1], started⟩
      ∧ (withS .ready (some ⟨[1], started⟩) w).ports.s.waiting = w)
    ∧ (∀ rest, (withPeriod (.read rest)).phase = .running ∧ (withPeriod (.read rest)).ports.a.period = .read rest
      ∧ (withPeriod (.read rest)).ports.b.period = .read rest)
    ∧ ((3 : Byte) ≠ 0x01 ∧ (3 : Byte) ≠ 0x02)
    ∧ ((withPeriod .ignored).phase = .running ∧ (withPeriod .ignored).ports.a.period = .ignored
      ∧ (withPeriod .ignored).ports.b.period = .ignored ∧ (withS .waitingIdle none none).ports.s.receiver = .waitingIdle)
    ∧ (∀ x ∈ ([([0x30, 5], 61), ([0x30, 5, 1], 60), ([0x30, 5, 1, 1], 0)] : List (List Byte × Byte)),
      x.1.length < 3 ∨ x.1.length = 3 ∧ x.2.toNat ≤ 60 ∨ 4 ≤ x.1.length ∧ x.1.length < 4 + (x.1.getD 3 0).toNat)
    ∧ (∀ got : List Byte, (withPeriod (.write got)).ports.a.period = .write got
      ∧ (withPeriod (.write got)).ports.b.period = .write got ∧ (withS (.inFrame got) none none).ports.s.receiver = .inFrame got)
    ∧ (∀ got ∈ ([[0x30, 5, 1, 0], [0x30, 5, 1, 1, 9]] : List (List Byte)),
      4 ≤ got.length ∧ got.length = 4 + (got.getD 3 0).toNat ∧ (got.getD 3 0).toNat ≤ 60)
    ∧ (PortInterfaces.bytes .a (withPeriod (.write [0x30, 5, 1])).ports [0]).2 = none
    ∧ (PortInterfaces.bytes .a (withPeriod (.write [0x30, 5, 1, 0])).ports [0]).2 ≠ none :=
  ⟨⟨rfl, fun p => by cases p <;> rfl⟩, rfl, by decide, rfl, fun _ _ => ⟨rfl, rfl, rfl⟩,
    fun _ => ⟨rfl, rfl, rfl⟩, by decide, by decide, by decide, fun _ => ⟨rfl, rfl, rfl⟩, by decide, by decide, by decide⟩

/-- Any other transfer byte: the rest of the period is ignored, a whole frame too (R173). -/
theorem test_otherTransferByte :
    exec (.requestFrameComplete .a (0 :: buildFrame 0x30 5 0x01 [])) (withPeriod .closed)
      = .next { withPeriod .closed with ports := { (withPeriod .closed).ports with a := ⟨.ignored, none⟩ } } := by
  rfl

/-- SDO after the READ transfer byte of an empty slot: the frame, then 0x00 (R173, R174). -/
theorem test_sdo :
    (SyncInterface.sdo ⟨.read (emptySlotFrame 3), none⟩) = 0x38 ∧ (SyncInterface.sdo ⟨.read [], none⟩) = 0
    ∧ (SyncInterface.sdo ⟨.write [0x30], none⟩) = 0
    ∧ (PortInterfaces.bytes .a (withPeriod (.read [1, 2, 3])).ports [0, 0]).1.a.period = .read [3] := by
  decide

/-- The unit's address, the response code and the check byte of an answer on each port (R172, R174, R176). -/
theorem test_responses :
    (listening.ports.respond .a (responseFrame 3 5 .unknownRequest)).a.slot = some (buildFrame 0x38 5 0x1E [])
    ∧ (listening.ports.respond .s (responseFrame 3 5 (.plain .busy .startUpLoad))).s.transmitting
      = some ⟨buildFrame 0x38 5 0x19 [0x51, 0xFF], false⟩
    ∧ emptySlotFrame 3 = buildFrame 0x38 0 0x02 [] := by
  decide +kernel

/-! ## Reset -/

theorem witness_ResetValuesAndEndOfReset :
    (∃ s : State, s.phase = .running) ∧ ∃ s : State, s.phase = .inReset ∧ s.link.inFlight = none
      ∧ ∃ w rest, s.link.queue = w :: rest :=
  ⟨⟨site, rfl⟩, { State.reset with phase := .inReset, link := ⟨resetWrites, none⟩ }, rfl, rfl, _, _, rfl⟩

/-- The 24 reset writes, channel by channel (R107). -/
theorem test_resetWrites : resetWrites.length = 24 ∧ resetWrites.head? = some ⟨⟨0, .rxSyn⟩, 0⟩
    ∧ resetWrites.getLast? = some ⟨⟨7, .gain⟩, 0⟩ := by
  decide

/-! ## The machine as a whole -/

theorem witness_StepTakesFrontCommand :
    (∃ s : State, s.pending = [.authorityTick])
    ∧ (∃ s : State, s.pending = [] ∧ s.phase = .running ∧ s.timebase.position + 1 < s.timebase.prescale * s.timebase.modulo)
    ∧ (∃ s : State, s.pending = [] ∧ s.phase = .running ∧ s.timebase.prescale * s.timebase.modulo ≤ s.timebase.position + 1)
    ∧ ∃ s : State, s.pending = [] ∧ s.phase ≠ .running :=
  ⟨⟨{ home with pending := [.authorityTick] }, rfl⟩, ⟨home, by decide⟩,
    ⟨atUnit 999, by decide⟩,
    ⟨{ home with phase := .unpowered }, by decide⟩⟩

/-- Channel 7 of a site on air, the others out of service. -/
def busyChannels : Vector Channel 8 := put (Vector.replicate 8 (Channel.atReset true true)) 7 onAir

/-- A site in OPERATE at work: a holder and a reserve, channel 7 on air by the active plan, an activation pending, a line
slot latched, an authority tick under way and its taking at the front of the queue. -/
def busy : State :=
  { latched true .edgeAndLevel false with
    pending := [.authorityTick]
    transit := [.tick .authority 1]
    authority := watch 5 3 .reserve
    channels := busyChannels
    plan := { site.plan with
      active := table entry0
      staged := table entry0
      number := 5
      pendingActivation := some ⟨6, 9, none, 0⟩ } }

theorem fits_default : PlanEntry.default.Fits := by constructor <;> simp [PlanEntry.default, IsLevel]

theorem fits_entry0 : entry0.Fits := by constructor <;> simp [entry0, PlanEntry.default, IsLevel]

theorem table_fits (c : Chan) : ((table entry0).get c).Fits ∧ ((table entry0).get c).squelchSource ≠ some c := by
  simp only [table, put_get, PlanTable.default, replicate_get]
  split
  · exact ⟨fits_entry0, by simp [entry0, PlanEntry.default]⟩
  · exact ⟨fits_default, by simp [PlanEntry.default]⟩

theorem busy_entry (c : Chan) : (busyChannels.get c).entry = (table entry0).get c := by
  simp only [busyChannels, table, put_get, PlanTable.default, replicate_get]
  split <;> rfl

theorem busy_lawful : busy.Lawful where
  authority := watch_lawful (by decide)
  sequencers := ⟨default_lawful, fun c => by
    simp only [busy, busyChannels, put_get, replicate_get]
    split <;> constructor <;> decide⟩
  ranges := fun c => by
    simp only [busy, busyChannels, put_get, replicate_get]
    split <;> constructor <;> decide
  entries := ⟨table_fits, table_fits, fun c => by
    show (busyChannels.get c).entry.Fits ∧ (busyChannels.get c).entry.squelchSource ≠ some c
    rw [busy_entry]; exact table_fits c, fun c e h => by simp [busy] at h, fun o p tag n r h => by simp [busy] at h⟩
  working := fun c => busy_entry c
  pending := fun x hx => by
    simp only [busy, Option.some.injEq] at hx
    subst hx
    exact ⟨rfl, .inl rfl, by decide, fun k hk => by simp at hk, Nat.zero_le _⟩
  link := by simp [busy, latched, site, home, ready, Link.Lawful]
  timebase := by constructor <;> decide
  level := ⟨by decide, by decide, by decide, fun c q => by
    cases q <;> simp only [busy, latched, site, home, ready, State.reset, LevelMonitor.atReset, LevelMonitor.meter, Meters.get,
      replicate_get, Meters.empty, Meter.empty] <;> constructor <;> simp [Accumulator.empty]⟩
  conditions := latched_lawful true .edgeAndLevel false
  operate := ⟨fun _ => ⟨rfl, rfl, rfl⟩, fun h => by simp [busy, latched, site, home] at h,
    fun h => by simp [busy, latched, site, home] at h, fun h => absurd rfl h⟩
  admission := ⟨fun _ => by decide, fun _ _ _ => by decide, fun h => by simp [busy, latched, site, home] at h, fun _ _ _ => rfl⟩

/-- Every invariant has a state at work that meets it and takes a step. -/
theorem witness_Invariants : ∃ s t : State, s.Lawful ∧ s.phase = .running ∧ s.mode.mode = .operate ∧ step s = .next t :=
  ⟨busy, _, busy_lawful, rfl, rfl, rfl⟩

/-! ## The check on command terms -/

/-- A licence table with an entry whose window is turned round. -/
def turned : LicenceTable := put emptyLicence 15 (some ⟨40000, 30000, 100, none⟩)

/-- The bytes of a plan entry record and of a licence entry record, written out from R184, and what they spell. -/
theorem test_records :
    encodeEntry entry0 = [1, 0, 0x75, 0x30, 0, 0x75, 0x49, 0, 100, 0, 0, 0, 0, 10, 0, 0, 4, 0, 0, 0]
    ∧ encodeLicence (some ⟨30000, 40000, 100, none⟩) = [1, 0, 0x75, 0x30, 0, 0x9C, 0x40, 0, 100, 0, 0, 0, 0, 0, 0]
    ∧ parseRequest 0x20 (7 :: encodeEntry entry0) = .request .plan (.stageEntry 7 raw0)
    ∧ parseRequest 0x60 (15 :: encodeLicence none) = .request .licence (.licenceEntry 15 none)
    ∧ encodeLatest (some ⟨0, .rx, 1, 64, -1, -1, -1, -64, -1⟩)
      = [1, 0, 1, 0, 64, 255, 255, 255, 255, 255, 255, 255, 255, 192, 255] := by
  decide

/-- The first check that fails names the detail: the gain before the source, and the lower channel of a clash (R6, R7). -/
theorem test_firstFailingCheck :
    entryFault 25 7 { raw0 with gainTarget := 601, squelchSource := some 7 } = some .gainTarget
    ∧ planFault 25 (put (table entry0) 3 entry0) = some (.txClash, 3)
    ∧ entryFault 25 7 raw0 = none ∧ raw0.toEntry.raw = raw0
    ∧ licenceFault ⟨1, 1, 601, none, none⟩ = some .txLow := by
  decide

/-- Each check refuses an ill-formed term and passes the term at its edge. -/
theorem test_wellFormed :
    (Instr.requestFrameComplete .a []).wellFormed = false ∧ (Instr.requestFrameComplete .a [0]).wellFormed = true
    ∧ (Instr.identify .b []).wellFormed = false ∧ (Instr.readStatus .s []).wellFormed = false
    ∧ (Instr.lengthByteAbove60 .s 60).wellFormed = false ∧ (Instr.lengthByteAbove60 .s 61).wellFormed = true
    ∧ (Instr.startUpLoadEnd turned).wellFormed = false ∧ (Instr.programmingCompletion turned).wellFormed = false
    ∧ (Instr.programmingCompletion licence0).wellFormed = true := by
  decide

/-- The windows of R21 end at 30,000 and 1,000,000 kHz and the ceiling at 600. -/
theorem test_licenceEntryFits :
    licenceEntryFits ⟨30000, 1000000, 600, some ⟨30000, 30000⟩⟩ = true
    ∧ licenceEntryFits ⟨29999, 1000000, 600, none⟩ = false ∧ licenceEntryFits ⟨30000, 1000001, 600, none⟩ = false
    ∧ licenceEntryFits ⟨30000, 1000000, 601, none⟩ = false
    ∧ licenceEntryFits ⟨30000, 1000000, 600, some ⟨30001, 30000⟩⟩ = false := by
  decide

/-- No command is spelled by bits, and a word put before the queue leaves the state. -/
theorem test_words : decodeTableWord 8 0x30 = none ∧ State.reset.withFetchWord 8 0x30 = State.reset := ⟨rfl, rfl⟩

/-- R158: channel 0 occupies slots 11 to 17 and channel 7 slots 60 to 66, and line FL2's slot is 69, of kind 18. -/
theorem test_slots : ChannelKind.lockTimeout.slot 0 = 11 ∧ ChannelKind.noCarrier.slot 0 = 17
    ∧ ChannelKind.lockTimeout.slot 7 = 60 ∧ ChannelKind.noCarrier.slot 7 = 66 ∧ lineSlot 2 = 69 ∧ kindOf 69 = 18 := by
  decide

end Sys2Proof.Tests
end

/-! # Entry changes under way and working entries -/

namespace Sys2Proof.Proofs.ChannelPlan

open Sys2Proof Sys2Proof.Machine

/-! ## The last entry under way for a channel (R5) -/

theorem lastEntry_append (c : Chan) (l l' : List Message) (e : PlanEntry) :
    lastEntry c (l ++ l') e = lastEntry c l' (lastEntry c l e) := by
  induction l generalizing e with
  | nil => rfl
  | cons m ms ih => cases m <;> exact ih _

/-- A list without an entry change for the channel leaves the entry. -/
theorem lastEntry_of_none {c : Chan} {l : List Message} (e : PlanEntry) (h : ∀ m ∈ l, m.isEntryChange c = false) :
    lastEntry c l e = e := by
  induction l with
  | nil => rfl
  | cons m ms ih =>
    have hms := ih fun x hx => h x (List.mem_cons_of_mem _ hx)
    have hm := h m List.mem_cons_self
    cases m with
    | entryChange d e' =>
      have hd : d ≠ c := by simpa [Message.isEntryChange] using hm
      simpa [lastEntry, hd] using hms
    | _ => exact hms

/-- Taking a message that is no entry change for the channel leaves the last entry under way. -/
theorem lastEntry_pull {key : Message → Bool} {c : Chan} {l ms : List Message} {m : Message} (e : PlanEntry)
    (h : pull key l = some (m, ms)) (hm : m.isEntryChange c = false) : lastEntry c ms e = lastEntry c l e := by
  obtain ⟨-, before, after, rfl, rfl, -⟩ := pull_some h
  have hone : lastEntry c [m] (lastEntry c before e) = lastEntry c before e :=
    lastEntry_of_none _ (by simpa using hm)
  rw [lastEntry_append, show before ++ m :: after = before ++ ([m] ++ after) from rfl, lastEntry_append,
    lastEntry_append, hone]

/-- Taking the first entry change of a channel and storing its entry leaves the last entry under way. -/
theorem lastEntry_pull_entryChange {c : Chan} {l ms : List Message} {e : PlanEntry} (w : PlanEntry)
    (h : pull (Message.isEntryChange c) l = some (.entryChange c e, ms)) : lastEntry c ms e = lastEntry c l w := by
  obtain ⟨-, before, after, rfl, rfl, hbefore⟩ := pull_some h
  rw [lastEntry_append, lastEntry_append, lastEntry_of_none e hbefore, lastEntry_of_none w hbefore]
  simp [lastEntry]

theorem isEntryChange_of_ordinary {m : Message} (c : Chan) (h : m.isOrdinary = true) : m.isEntryChange c = false := by
  cases m <;> first | rfl | cases h

/-- Messages carried without an entry change taken or sent leave the last entry under way. -/
theorem lastEntry_carried {takes sends : Message → Bool} {c : Chan} {l l' : List Message} (e : PlanEntry)
    (h : Carried takes sends l l') (ht : ∀ m, takes m = true → m.isEntryChange c = false)
    (hs : ∀ m, sends m = true → m.isEntryChange c = false) : lastEntry c l' e = lastEntry c l e := by
  obtain ⟨ms, sent, rfl, hl, hsent⟩ := h
  rw [lastEntry_append, lastEntry_of_none _ fun m hm => hs m (hsent m hm)]
  rcases hl with rfl | ⟨key, m, hp, hm⟩
  · rfl
  · exact lastEntry_pull e hp (ht m hm)

/-! ## The entry changes of a write of the active plan (R5) -/

theorem mem_entryChanges {old new : PlanTable} {m : Message} :
    m ∈ entryChanges old new ↔ ∃ c, old.get c ≠ new.get c ∧ m = .entryChange c (new.get c) := by
  simp only [entryChanges, List.mem_filterMap, List.mem_finRange, true_and]
  refine exists_congr fun c => ?_
  split <;> simp_all [eq_comm]

theorem entryChanges_self (t : PlanTable) : entryChanges t t = [] :=
  List.eq_nil_iff_forall_not_mem.2 fun m hm => by
    obtain ⟨c, hne, -⟩ := mem_entryChanges.1 hm
    exact hne rfl

/-- A list of entry changes that all carry one entry to the channel leaves that entry, where one is in the list. -/
theorem lastEntry_entryChanges_list (c : Chan) (old new : PlanTable) (cs : List Chan) (e : PlanEntry) :
    lastEntry c (cs.filterMap fun d => if old.get d = new.get d then none else some (.entryChange d (new.get d))) e
      = if c ∈ cs ∧ old.get c ≠ new.get c then new.get c else e := by
  induction cs generalizing e with
  | nil => simp [lastEntry]
  | cons d ds ih =>
    by_cases hd : old.get d = new.get d
    · rw [List.filterMap_cons_none (by simp [hd]), ih]
      by_cases hcd : c = d
      · subst hcd
        simp [hd]
      · simp [hcd]
    · rw [List.filterMap_cons_some (by rw [if_neg hd])]
      simp only [lastEntry, ih]
      by_cases hcd : d = c
      · subst hcd
        simp [hd]
      · simp [hcd, Ne.symm hcd]

/-- The entry changes of a write take a channel from its old active entry to its new one. -/
theorem lastEntry_entryChanges (c : Chan) (old new : PlanTable) :
    lastEntry c (entryChanges old new) (old.get c) = new.get c := by
  rw [entryChanges, lastEntry_entryChanges_list]
  by_cases h : old.get c = new.get c <;> simp [h]

/-! ## What an event at a sequencer does to the working entry (R5, R91) -/

theorem final_entry (old : Channel) (o : SeqOutcome) : (o.final old).entry = o.record.entry := by
  unfold SeqOutcome.final
  split <;> rfl

theorem expireSettling_entry (r : Channel) : r.expireSettling.record.entry = r.entry := by
  unfold Channel.expireSettling
  split <;> rfl

theorem enterSettling_entry (n : Nat) (r : Channel) : (r.enterSettling n).record.entry = r.entry := by
  unfold Channel.enterSettling
  split
  · exact expireSettling_entry _
  · rfl

theorem tick_entry (p : SequencerParams) (r : Channel) : (r.tick p).record.entry = r.entry := by
  unfold Channel.tick Channel.tickTuning Channel.tickSettling Channel.endBlanking
  repeat' split
  all_goals first
    | rfl
    | exact enterSettling_entry _ _
    | exact expireSettling_entry _

theorem setLock_entry (r : Channel) (side : Side) (b : Bool) : (r.setLock side b).entry = r.entry := by
  cases side <;> rfl

theorem lockChanged_entry (p : SequencerParams) (b : Bool) (r : Channel) :
    (r.lockChanged p b).record.entry = r.entry := by
  unfold Channel.lockChanged
  repeat' split
  all_goals first
    | rfl
    | exact enterSettling_entry _ _

theorem markWritten_entry (r : Channel) (d : Device) (v : Nat) : (r.markWritten d v).entry = r.entry := by
  unfold Channel.markWritten
  repeat' split
  all_goals rfl

theorem completed_entry (r : Channel) (d : Device) (v : Nat) : (r.completed d v).entry = r.entry := by
  unfold Channel.completed
  repeat' split
  all_goals first
    | rfl
    | exact markWritten_entry r d v

theorem governingRx_entry (r : Channel) (m : Int) : (r.governingRx m).record.entry = r.entry := by
  unfold Channel.governingRx
  repeat' split
  all_goals rfl

theorem reflected_entry (p : SequencerParams) (r : Channel) (m : Int) : (r.reflected p m).record.entry = r.entry := by
  unfold Channel.reflected Channel.foldMore Channel.recover
  repeat' split
  all_goals rfl

theorem forward_entry (p : SequencerParams) (r : Channel) (m : Int) : (r.forward p m).record.entry = r.entry := by
  unfold Channel.forward
  split <;> rfl

theorem faultShutdown_entry (r : Channel) : r.faultShutdown.record.entry = r.entry := by
  unfold Channel.faultShutdown
  split <;> rfl

theorem siteStart_entry (raster : Nat) (r : Channel) : (r.siteStart raster).record.entry = r.entry := by
  unfold Channel.siteStart
  split <;> rfl

theorem siteStop_entry (r : Channel) : r.siteStop.record.entry = r.entry := by
  unfold Channel.siteStop
  split <;> rfl

/-- An entry change replaces the working entry whole, whatever the state (R91 to R93). -/
theorem entryChanged_entry (raster : Nat) (operate : Bool) (r : Channel) (e : PlanEntry) :
    (r.entryChanged raster operate e).record.entry = e := by
  unfold Channel.entryChanged Channel.sameFrequencyChange
  repeat' split
  all_goals rfl

/-! ## The working entries through a command of a sequencer -/

/-- The working entry of a channel. -/
def workingEntry (d : Chan) (s : State) : PlanEntry := (s.channels.get d).entry

theorem workingEntry_quiet (d : Chan) : Quiet (workingEntry d) := ⟨fun _ _ => rfl, fun _ _ => rfl⟩

theorem commit_workingEntry (c d : Chan) (o : SeqOutcome) (s : State) :
    workingEntry d (s.commit c o) = if c = d then o.record.entry else workingEntry d s := by
  simp only [workingEntry, State.commit_channels, put_get]
  split
  · exact final_entry _ _
  · rfl

/-- An event whose outcome keeps the record's entry keeps every working entry. -/
theorem commit_keeps_workingEntry {c : Chan} {o : SeqOutcome} {s : State} (d : Chan)
    (h : o.record.entry = (s.channels.get c).entry) : workingEntry d (s.commit c o) = workingEntry d s := by
  rw [commit_workingEntry]
  split
  · rename_i hcd
    subst hcd
    exact h
  · rfl

theorem tickChannel_workingEntry (c d : Chan) (due : Channel → Bool) (s : State) :
    workingEntry d (tickChannel c due s) = workingEntry d s := by
  unfold tickChannel
  split
  · exact takeTick_quiet (workingEntry_quiet d) s fun n s => commit_keeps_workingEntry d (tick_entry _ _)
  · rfl

theorem takeResult_workingEntry (c d : Chan) (q : Quantity) (f : SequencerParams → Channel → WindowResult → SeqOutcome)
    (s : State) (hf : ∀ p r w, (f p r w).record.entry = r.entry) :
    workingEntry d (takeResult c q f s) = workingEntry d s := by
  unfold takeResult
  split
  · rename_i heq
    split
    · rw [commit_keeps_workingEntry d (hf _ _ _), take_quiet (workingEntry_quiet d) heq]
    · rfl
  · rfl

/-- Of a sequencer's commands ENTRY_CHANGE alone writes a working entry. -/
theorem channels_workingEntry {c : Instr} {s t : State} (d : Chan) (hc : blockOf c = .channels)
    (hne : ∀ x, c ≠ .entryChange x) (h : exec c s = .next t) : workingEntry d t = workingEntry d s := by
  cases c <;> first | (cases hc; done) | skip
  case entryChange x => exact absurd rfl (hne x)
  case restartChannel p b =>
    simp only [exec, execRestartChannel, Host.Outcome.next.injEq] at h
    subst h
    refine serve_quiet (workingEntry_quiet d) s fun body s r s'' h => ?_
    simp only [holderOnly, restartChannel] at h
    repeat' split at h
    all_goals first
      | (cases h; done)
      | (cases h; first | rfl | exact commit_keeps_workingEntry d rfl)
  case lockLineChange x side asserted =>
    simp only [exec, execLockLineChange, Host.Outcome.next.injEq] at h
    subst h
    refine whenRunning_quiet s fun s => ?_
    split
    · rfl
    · exact commit_keeps_workingEntry d ((lockChanged_entry _ _ _).trans (setLock_entry _ _ _))
  case sequencerTick | lockTimeout | blankingEnd | settlingExpiry =>
    simp only [exec, execSequencerTick, execLockTimeout, execBlankingEnd, execSettlingExpiry,
      Host.Outcome.next.injEq] at h
    subst h
    exact tickChannel_workingEntry _ _ _ _
  case rxResult x =>
    simp only [exec, execRxResult, Host.Outcome.next.injEq] at h
    subst h
    refine takeResult_workingEntry _ _ _ _ _ fun p r w => ?_
    split
    · exact governingRx_entry _ _
    · rfl
  case reflResult x =>
    simp only [exec, execReflResult, Host.Outcome.next.injEq] at h
    subst h
    exact takeResult_workingEntry _ _ _ _ _ fun p r w => reflected_entry _ _ _
  case fwdResult x =>
    simp only [exec, execFwdResult, Host.Outcome.next.injEq] at h
    subst h
    exact takeResult_workingEntry _ _ _ _ _ fun p r w => forward_entry _ _ _
  all_goals
    simp only [exec, execSiteStart, execSiteStop, execTuneWriteCompletion, execFaultShutdown,
      Host.Outcome.next.injEq] at h
    subst h
    split
    · rename_i heq
      refine (commit_keeps_workingEntry d ?_).trans (take_quiet (workingEntry_quiet d) heq)
      first
        | exact siteStart_entry _ _
        | exact siteStop_entry _
        | exact completed_entry _ _ _
        | exact faultShutdown_entry _
    · rfl

/-- What ENTRY_CHANGE does: nothing, or it takes the channel's first entry change and stores its entry whole. -/
theorem entryChange_cases {c : Chan} {s t : State} (h : exec (.entryChange c) s = .next t) :
    t = s ∨ ∃ e ms sent, pull (Message.isEntryChange c) s.transit = some (.entryChange c e, ms)
      ∧ t.transit = ms ++ sent ∧ (∀ m ∈ sent, m.isOrdinary = true) ∧ t.plan = s.plan
      ∧ ∀ d, workingEntry d t = if c = d then e else workingEntry d s := by
  simp only [exec, execEntryChange, Host.Outcome.next.injEq] at h
  subst h
  split
  · rename_i x e s' heq
    obtain rfl : x = c := by simpa [Message.isEntryChange] using take_key heq
    obtain ⟨ms, hp, rfl⟩ := take_some heq
    refine Or.inr ⟨e, ms, _, hp, State.commit_transit _ _ _, commit_messages_ordinary _ _ _, rfl, fun d => ?_⟩
    rw [commit_workingEntry, entryChanged_entry]
    rfl
  · exact Or.inl rfl

end Sys2Proof.Proofs.ChannelPlan

/-! # What the Plan Controller's commands do to the tables and send for them -/

namespace Sys2Proof.Proofs.ChannelPlan

open Sys2Proof Sys2Proof.Machine

/-! ## What the Plan Controller does to its tables and what it sends for them -/

/-- Every entry of both tables has a property of its channel. -/
def TablesHold (G : Chan → PlanEntry → Prop) (k : PlanController) : Prop :=
  ∀ c, G c (k.staged.get c) ∧ G c (k.active.get c)

theorem TablesHold.put {G : Chan → PlanEntry → Prop} {t : PlanTable} {c : Chan} {e : PlanEntry}
    (h : ∀ d, G d (t.get d)) (he : G c e) (d : Chan) : G d ((put t c e).get d) := by
  rw [put_get]
  split
  · rename_i hcd
    exact hcd ▸ he
  · exact h d

/-- An act of the Plan Controller: it sends ordinary messages, then the entry changes of what it wrote into the active
plan (R5), and leaves tables whose entries have the property. -/
structure PlanAct (G : Chan → PlanEntry → Prop) (s t : State) : Prop where
  transit : ∃ sent, t.transit = s.transit ++ sent ++ entryChanges s.plan.active t.plan.active
    ∧ ∀ m ∈ sent, m.isOrdinary = true
  tables : TablesHold G t.plan

section Acts

variable {G : Chan → PlanEntry → Prop} {s t : State}

/-- An act in the words of an owner's answer to a request. -/
theorem PlanAct.of_some {x : Reply × State} {r : Reply} (hx : PlanAct G s x.2) (h : some x = some (r, t)) :
    PlanAct G s t := by
  cases h
  exact hx

/-- An act that sends ordinary messages and leaves the active plan. -/
theorem PlanAct.of_active {sent : List Message} (ht : t.transit = s.transit ++ sent)
    (hs : ∀ m ∈ sent, m.isOrdinary = true) (ha : t.plan.active = s.plan.active) (hg : TablesHold G t.plan) :
    PlanAct G s t :=
  ⟨⟨sent, by rw [ha, entryChanges_self, List.append_nil, ht], hs⟩, hg⟩

/-- An act that sends nothing and leaves the active plan. -/
theorem PlanAct.silent (ht : t.transit = s.transit) (ha : t.plan.active = s.plan.active) (hg : TablesHold G t.plan) :
    PlanAct G s t :=
  .of_active (sent := []) (by simpa using ht) (by simp) ha hg

theorem PlanAct.refl (hs : TablesHold G s.plan) : PlanAct G s s := .silent rfl rfl hs

theorem PlanAct.writePlan {k : PlanController} (hk : TablesHold G k) : PlanAct G s (s.writePlan k) :=
  ⟨⟨[], by simp, by simp⟩, hk⟩

/-- An occurrence reported ahead of the write of the active plan. -/
theorem PlanAct.report_writePlan {k : PlanController} (i : SiteKind) (hk : TablesHold G k) :
    PlanAct G s ((s.report i).writePlan k) :=
  ⟨⟨[.occurrence i.slot], rfl, by simp [Message.isOrdinary]⟩, hk⟩

theorem setPending_act (x : Option PendingActivation) (hs : TablesHold G s.plan) : PlanAct G s (s.setPending x) :=
  .silent rfl rfl hs

theorem abandon_act (hs : TablesHold G s.plan) : PlanAct G s s.abandon :=
  .of_active (State.report_transit _ _) (by simp [Message.isOrdinary]) rfl hs

theorem activate_act (n : Word16) (hs : TablesHold G s.plan) : PlanAct G s (s.activate n) :=
  .report_writePlan _ fun c => ⟨(hs c).1, (hs c).1⟩

theorem holderOnly_act {p : Port} {f : State → Reply × State} (hs : TablesHold G s.plan) (hf : PlanAct G s (f s).2) :
    PlanAct G s (holderOnly p f s).2 := by
  unfold holderOnly
  split
  · exact hf
  · exact .refl hs

theorem editing_act {p : Port} {b : Bool} {f : State → Reply × State} (hs : TablesHold G s.plan)
    (hf : PlanAct G s (f s).2) : PlanAct G s (editing p b f s).2 := by
  refine holderOnly_act hs ?_
  repeat' split
  · exact .refl hs
  · exact .refl hs
  · exact hf

theorem storeEntry_act {c : Chan} {e : PlanEntry} (hs : TablesHold G s.plan) (he : G c e) :
    PlanAct G s (storeEntry c e s).2 := by
  have hstaged := TablesHold.put (fun d => (hs d).1) he
  have happly : PlanAct G s (s.writePlan (s.plan.applyEntry c e)) :=
    .writePlan fun d => ⟨hstaged d, TablesHold.put (fun d => (hs d).2) he d⟩
  unfold storeEntry applyInOperate
  repeat' split
  all_goals first
    | exact happly
    | exact .refl hs
    | exact .silent rfl rfl fun d => ⟨hstaged d, (hs d).2⟩

theorem stageEntry_act {n : Nat} {r : RawEntry} (hs : TablesHold G s.plan)
    (he : ∀ c, chanOf n = some c → entryFault s.plan.raster c r = none → G c r.toEntry) :
    PlanAct G s (stageEntry n r s).2 := by
  unfold stageEntry
  split
  · exact .refl hs
  · rename_i c hc
    split
    · exact .refl hs
    · rename_i hf
      exact storeEntry_act hs (he c hc hf)

theorem stageClear_act (hd : ∀ c, G c PlanEntry.default) (hs : TablesHold G s.plan) :
    PlanAct G s (stageClear s).2 :=
  .silent rfl rfl fun c => ⟨by simpa [stageClear, PlanTable.default] using hd c, (hs c).2⟩

theorem stageCopy_act (hs : TablesHold G s.plan) : PlanAct G s (stageCopy s).2 :=
  .silent rfl rfl fun c => ⟨(hs c).2, (hs c).2⟩

theorem armActivation_act (n : Word16) (kind : Nat) (epoch : Word16) (hs : TablesHold G s.plan) :
    PlanAct G s (armActivation n kind epoch s).2 := by
  unfold armActivation
  repeat' split
  all_goals first
    | exact .refl hs
    | exact setPending_act _ hs

theorem disarming_act (hs : TablesHold G s.plan) : PlanAct G s (disarm s).2 := by
  unfold disarm
  split
  · exact .refl hs
  · exact setPending_act _ hs

theorem activateNow_act (n : Word16) (hs : TablesHold G s.plan) : PlanAct G s (activateNow n s).2 := by
  unfold activateNow
  repeat' split
  all_goals first
    | exact .refl hs
    | exact activate_act n hs

theorem setApplyMode_act (value : List Byte) (hs : TablesHold G s.plan) : PlanAct G s (setApplyMode value s).2 := by
  unfold setApplyMode
  repeat' split
  all_goals exact .silent rfl rfl hs

theorem setRaster_act (value : List Byte) (hs : TablesHold G s.plan) : PlanAct G s (setRaster value s).2 := by
  unfold setRaster
  repeat' split
  all_goals exact .silent rfl rfl hs

theorem planTick_act (n : Word16) (hs : TablesHold G s.plan) : PlanAct G s (s.planTick n) := by
  unfold State.planTick State.deferralTest State.targetTest
  repeat' split
  all_goals first
    | exact .refl hs
    | exact abandon_act hs
    | exact activate_act _ hs
    | exact setPending_act _ hs

theorem takeStandbyNotice_act (hs : TablesHold G s.plan) : PlanAct G s s.takeStandbyNotice := by
  unfold State.takeStandbyNotice
  split
  · exact abandon_act hs
  · exact .refl hs

theorem atReset_tablesHold (hd : ∀ c, G c PlanEntry.default) : TablesHold G PlanController.atReset := fun c => by
  simpa [PlanController.atReset, PlanTable.default] using hd c

theorem initializePlan_act (hd : ∀ c, G c PlanEntry.default) : PlanAct G s s.initializePlan := by
  unfold State.initializePlan
  split
  · exact .report_writePlan _ (atReset_tablesHold hd)
  · exact .writePlan (atReset_tablesHold hd)

end Acts

/-- A command of the Plan Controller: at most one message taken, an act, and ordinary messages behind. -/
structure PlanCommand (G : Chan → PlanEntry → Prop) (takes : Message → Bool) (s t : State) : Prop where
  transit : ∃ before after, Carried takes Message.isOrdinary s.transit before
    ∧ t.transit = before ++ entryChanges s.plan.active t.plan.active ++ after ∧ ∀ m ∈ after, m.isOrdinary = true
  tables : TablesHold G t.plan

section Commands

variable {G : Chan → PlanEntry → Prop} {takes : Message → Bool} {s t u : State}

theorem PlanCommand.refl (hs : TablesHold G s.plan) : PlanCommand G takes s s :=
  ⟨⟨s.transit, [], Carried.same _, by simp [entryChanges_self], by simp⟩, hs⟩

/-- A message taken, an act on what is left, ordinary messages behind. -/
theorem PlanCommand.of_act {key : Message → Bool} {m : Message} {ms after : List Message}
    (hp : pull key s.transit = some (m, ms)) (hm : takes m = true) (ha : PlanAct G { s with transit := ms } t)
    (hu : u.transit = t.transit ++ after) (hafter : ∀ m ∈ after, m.isOrdinary = true) (hk : u.plan = t.plan) :
    PlanCommand G takes s u := by
  obtain ⟨⟨sent, ht, hsent⟩, htables⟩ := ha
  refine ⟨⟨ms ++ sent, after, ⟨ms, sent, rfl, Or.inr ⟨key, m, hp, hm⟩, hsent⟩, ?_, hafter⟩, hk ▸ htables⟩
  rw [hu, ht, hk]

/-- A request served: the act may suppose that the request was under way. -/
theorem serve_planCommand {p : Port} {f : Request → State → Option (Reply × State)} (hs : TablesHold G s.plan)
    (hr : ∀ tag body, takes (.request .plan p tag body) = true)
    (hf : ∀ tag body ms r s'', Message.request .plan p tag body ∈ s.transit →
      f body { s with transit := ms } = some (r, s'') → PlanAct G { s with transit := ms } s'') :
    PlanCommand G takes s (serve .plan p f s) := by
  rcases serve_cases .plan p f s with h | ⟨tag, body, ms, r, s'', -, hp, hb, h⟩
  · rw [h]
    exact .refl hs
  · have hmem : Message.request .plan p tag body ∈ s.transit := by
      obtain ⟨-, l₁, l₂, hl, -, -⟩ := pull_some hp
      simp [hl]
    rw [h]
    exact .of_act (after := []) hp (hr _ _) (hf tag body ms r s'' hmem hb) (by simp) (by simp) (by simp)

theorem serveOnly_planCommand {p : Port} {req : Request} {f : State → Reply × State} (hs : TablesHold G s.plan)
    (hr : ∀ tag body, takes (.request .plan p tag body) = true)
    (hf : ∀ s : State, TablesHold G s.plan → PlanAct G s (f s).2) :
    PlanCommand G takes s (serveOnly .plan p req f s) := by
  refine serve_planCommand hs hr fun tag body ms r s'' _ h => ?_
  split_ifs at h
  exact .of_some (hf { s with transit := ms } hs) h

theorem configureItem_planCommand {i : Item} {p : Port} {f : List Byte → State → Reply × State} (hi : i.owner = .plan)
    (hs : TablesHold G s.plan) (hr : ∀ tag body, takes (.request .plan p tag body) = true)
    (hf : ∀ v (s : State), TablesHold G s.plan → PlanAct G s (f v s).2) :
    PlanCommand G takes s (configureItem i p f s) := by
  unfold configureItem
  rw [hi]
  refine serve_planCommand hs hr fun tag body ms r s'' _ h => ?_
  split at h
  · split_ifs at h
    exact .of_some (hf _ { s with transit := ms } hs) h
  · cases h

/-- Every command of the Plan Controller: where the default entry and every entry submitted that passes the entry checks
have a property of their channel, both tables keep it. -/
theorem plan_command {c : Instr} (hc : blockOf c = .plan) (h : exec c s = .next t)
    (hd : ∀ c, G c PlanEntry.default) (hs : TablesHold G s.plan)
    (he : ∀ o p tag n r, Message.request o p tag (.stageEntry n r) ∈ s.transit →
      ∀ c, entryFault s.plan.raster c r = none → G c r.toEntry) : PlanCommand G (takesOf c) s t := by
  have htick : PlanCommand G (takesOf .planControllerTick) s s.takePlanTick := by
    unfold State.takePlanTick
    split
    · exact .refl hs
    · rcases takeTick_cases .plan State.planTick s with h | ⟨n, ms, hp, h⟩
      · rw [h]
        exact .refl hs
      · rw [h]
        exact .of_act (after := []) hp rfl (planTick_act n hs) (by simp) (by simp) rfl
  cases c <;> first | (cases hc; done) | skip
  case planControllerTick =>
    cases h
    exact htick
  case activationAbandoned =>
    simp only [exec, execActivationAbandoned, Host.Outcome.next.injEq] at h
    subst h
    split
    · exact htick
    · exact .refl hs
  case standbyNotice =>
    simp only [exec, execStandbyNotice, Host.Outcome.next.injEq] at h
    subst h
    split
    · rename_i heq
      obtain ⟨ms, hp, rfl⟩ := take_some heq
      exact .of_act (after := []) hp (take_key heq) (takeStandbyNotice_act hs) (by simp) (by simp) rfl
    · exact .refl hs
  case planControllerInitialize =>
    simp only [exec, execPlanControllerInitialize, Host.Outcome.next.injEq] at h
    subst h
    rcases takeInitNotice_cases .planController State.initializePlan s with h | ⟨ms, hp, h⟩
    · rw [h]
      exact .refl hs
    · rw [h]
      exact .of_act hp rfl (initializePlan_act hd) (State.send_transit _ _) (by simp [Message.isOrdinary]) rfl
  case configureApplyMode p =>
    cases h
    exact configureItem_planCommand rfl hs (fun _ _ => rfl) fun v s hs => holderOnly_act hs (setApplyMode_act v hs)
  case configureRaster p =>
    cases h
    exact configureItem_planCommand rfl hs (fun _ _ => rfl) fun v s hs => holderOnly_act hs (setRaster_act v hs)
  case stageClear p =>
    cases h
    exact serveOnly_planCommand hs (fun _ _ => rfl) fun s hs => editing_act hs (stageClear_act hd hs)
  case stageCopy p =>
    cases h
    exact serveOnly_planCommand hs (fun _ _ => rfl) fun s hs => editing_act hs (stageCopy_act hs)
  case disarm p =>
    cases h
    exact serveOnly_planCommand hs (fun _ _ => rfl) fun s hs => holderOnly_act hs (disarming_act hs)
  case armActivation p =>
    cases h
    refine serve_planCommand hs (fun _ _ => rfl) fun tag body ms r s'' _ h => ?_
    split at h
    · exact .of_some (holderOnly_act hs (armActivation_act _ _ _ hs)) h
    · cases h
  case activateNow p =>
    cases h
    refine serve_planCommand hs (fun _ _ => rfl) fun tag body ms r s'' _ h => ?_
    split at h
    · exact .of_some (holderOnly_act hs (activateNow_act _ hs)) h
    · cases h
  case stageEntry p =>
    cases h
    refine serve_planCommand hs (fun _ _ => rfl) fun tag body ms r s'' hmem h => ?_
    split at h
    · exact .of_some (editing_act hs (stageEntry_act hs fun c _ hf => he _ _ _ _ _ hmem c hf)) h
    · cases h

end Commands

end Sys2Proof.Proofs.ChannelPlan

/-! # The entry checks and the plan checks -/

namespace Sys2Proof.Proofs.ChannelPlan

open Sys2Proof Sys2Proof.Machine

/-! ## The entry checks (R6) -/

theorem service_ofCode_none : ∀ n, Service.ofCode n = none ↔ ¬ n ≤ 1
  | 0 | 1 | _ + 2 => by simp [Service.ofCode]

theorem gainMode_ofCode_none : ∀ n, GainMode.ofCode n = none ↔ ¬ n ≤ 1
  | 0 | 1 | _ + 2 => by simp [GainMode.ofCode]

theorem gainMode_ofCode_ramp : ∀ n, GainMode.ofCode n = some .ramp ↔ n = 1
  | 0 | 1 | _ + 2 => by simp [GainMode.ofCode]

theorem frequencyFits_eq (raster freq : Nat) :
    frequencyFits raster freq = decide (30000 ≤ freq ∧ freq ≤ 1000000 ∧ freq % raster = 0) := by
  rw [Bool.eq_iff_iff]
  simp [frequencyFits, and_assoc]

theorem absentOrWithin_eq (low high : Nat) (x : Option Nat) :
    absentOrWithin low high x = x.all fun k => decide (low ≤ k ∧ k ≤ high) := by
  cases x with
  | none => rfl
  | some k => simp [absentOrWithin]

/-- The checks 2 to 13 of R6 in order, each with the detail it gives where it fails. -/
def entryChecks (raster : Nat) (c : Chan) (r : RawEntry) : List (Bool × Detail) :=
  [ (decide (r.service ≤ 1), .service),
    (decide (30000 ≤ r.rxFreq ∧ r.rxFreq ≤ 1000000 ∧ r.rxFreq % raster = 0), .rxFreq),
    (decide (30000 ≤ r.txFreq ∧ r.txFreq ≤ 1000000 ∧ r.txFreq % raster = 0), .txFreq),
    (decide (r.txFreq ≠ r.rxFreq), .txFreq),
    (decide (r.gainTarget ≤ 600), .gainTarget),
    (decide (r.gainMode ≤ 1), .gainMode),
    (decide (r.rampRate.isSome ↔ r.gainMode = 1), .rampRate),
    (r.rampRate.all fun k => decide (1 ≤ k ∧ k ≤ 50), .rampRate),
    (decide (r.squelchClose ≤ r.squelchOpen), .squelchOpen),
    (decide (1 ≤ r.squelchHoldoff ∧ r.squelchHoldoff ≤ 16), .squelchHoldoff),
    (r.squelchSource.all fun k => decide (k ≤ 7), .squelchSource),
    (decide (r.squelchSource ≠ some c.val), .squelchSource)]

/-- The detail of the first check of a list that fails. -/
def firstFault (checks : List (Bool × Detail)) : Option Detail := (checks.find? fun x => !x.1).map Prod.snd

theorem firstFault_nil : firstFault [] = none := rfl

/-- A chain of refusals is the first failing check of a list. -/
theorem firstFault_cons {bad : Prop} [Decidable bad] {ok : Bool} (d : Detail) (checks : List (Bool × Detail))
    (h : bad ↔ ok = false) : (if bad then some d else firstFault checks) = firstFault ((ok, d) :: checks) := by
  cases ok <;> simp_all [firstFault]

theorem firstFault_none {checks : List (Bool × Detail)} : firstFault checks = none ↔ ∀ x ∈ checks, x.1 = true := by
  simp [firstFault]

/-- The entry checks answer the first of the list that fails (R6). -/
theorem entryFault_eq_firstFault (raster : Nat) (c : Chan) (r : RawEntry) :
    entryFault raster c r = firstFault (entryChecks raster c r) := by
  unfold entryFault entryChecks
  rw [← firstFault_nil]
  repeat' rw [firstFault_cons]
  · rw [service_ofCode_none, decide_eq_false_iff_not]
  · rw [frequencyFits_eq, Bool.not_eq_true']
  · rw [frequencyFits_eq, Bool.not_eq_true']
  · rw [decide_eq_false_iff_not, not_not]
  · rw [decide_eq_false_iff_not, not_le]
  · rw [gainMode_ofCode_none, decide_eq_false_iff_not]
  · rw [bne_iff_ne, decide_eq_false_iff_not, ne_eq, Bool.eq_iff_iff, decide_eq_true_eq, gainMode_ofCode_ramp]
  · rw [absentOrWithin_eq, Bool.not_eq_true']
  · rw [decide_eq_false_iff_not, not_le]
  · rw [decide_eq_false_iff_not]
  · simp [absentOrWithin_eq]
  · rw [decide_eq_false_iff_not, not_not]

/-- What an entry that passes all checks of R6 is. -/
structure EntryPasses (raster : Nat) (c : Chan) (r : RawEntry) : Prop where
  service : r.service ≤ 1
  rx : 30000 ≤ r.rxFreq ∧ r.rxFreq ≤ 1000000 ∧ r.rxFreq % raster = 0
  tx : 30000 ≤ r.txFreq ∧ r.txFreq ≤ 1000000 ∧ r.txFreq % raster = 0
  differ : r.txFreq ≠ r.rxFreq
  gain : r.gainTarget ≤ 600
  gainMode : r.gainMode ≤ 1
  rate : r.rampRate.isSome ↔ r.gainMode = 1
  rateRange : ∀ k, r.rampRate = some k → 1 ≤ k ∧ k ≤ 50
  squelch : r.squelchClose ≤ r.squelchOpen
  holdoff : 1 ≤ r.squelchHoldoff ∧ r.squelchHoldoff ≤ 16
  source : ∀ k, r.squelchSource = some k → k ≤ 7
  otherSource : r.squelchSource ≠ some c.val

theorem entryFault_none {raster : Nat} {c : Chan} {r : RawEntry} :
    entryFault raster c r = none ↔ EntryPasses raster c r := by
  rw [entryFault_eq_firstFault, firstFault_none]
  simp only [entryChecks, List.forall_mem_cons, decide_eq_true_eq, Option.all_eq_true, List.not_mem_nil, false_imp_iff,
    implies_true, and_true]
  constructor
  · rintro ⟨service, rx, tx, differ, gain, gainMode, rate, rateRange, squelch, holdoff, source, otherSource⟩
    exact ⟨service, rx, tx, differ, gain, gainMode, rate, rateRange, squelch, holdoff, source, otherSource⟩
  · rintro ⟨service, rx, tx, differ, gain, gainMode, rate, rateRange, squelch, holdoff, source, otherSource⟩
    exact ⟨service, rx, tx, differ, gain, gainMode, rate, rateRange, squelch, holdoff, source, otherSource⟩

/-- The gain mode and the ramp rate of an entry that passes: STEP without a rate, or RAMP with one of 1 to 50. -/
theorem gainMode_rampRate_iff {mode : Nat} {rate : Option Nat} :
    (mode = 0 ∧ rate = none ∨ mode = 1 ∧ ∃ k, rate = some k ∧ 1 ≤ k ∧ k ≤ 50)
      ↔ mode ≤ 1 ∧ (rate.isSome ↔ mode = 1) ∧ ∀ k, rate = some k → 1 ≤ k ∧ k ≤ 50 := by
  cases rate with
  | none => simp; omega
  | some k => simp; omega

theorem entryPasses_iff {raster : Nat} {c : Chan} {r : RawEntry} : EntryPasses raster c r ↔
    (r.service = 0 ∨ r.service = 1)
    ∧ (30000 ≤ r.rxFreq ∧ r.rxFreq ≤ 1000000 ∧ r.rxFreq % raster = 0)
    ∧ (30000 ≤ r.txFreq ∧ r.txFreq ≤ 1000000 ∧ r.txFreq % raster = 0)
    ∧ r.txFreq ≠ r.rxFreq ∧ r.gainTarget ≤ 600
    ∧ (r.gainMode = 0 ∧ r.rampRate = none ∨ r.gainMode = 1 ∧ ∃ k, r.rampRate = some k ∧ 1 ≤ k ∧ k ≤ 50)
    ∧ r.squelchClose ≤ r.squelchOpen ∧ (1 ≤ r.squelchHoldoff ∧ r.squelchHoldoff ≤ 16)
    ∧ (∀ k, r.squelchSource = some k → k ≤ 7 ∧ k ≠ c.val) := by
  rw [gainMode_rampRate_iff]
  constructor
  · intro h
    exact ⟨Nat.le_one_iff_eq_zero_or_eq_one.1 h.service, h.rx, h.tx, h.differ, h.gain,
      ⟨h.gainMode, h.rate, h.rateRange⟩, h.squelch, h.holdoff,
      fun k hk => ⟨h.source k hk, fun hc => h.otherSource (hc ▸ hk)⟩⟩
  · rintro ⟨hservice, hrx, htx, hdiffer, hgain, ⟨hmode, hrate, hrange⟩, hsquelch, hholdoff, hsource⟩
    exact ⟨Nat.le_one_iff_eq_zero_or_eq_one.2 hservice, hrx, htx, hdiffer, hgain, hmode, hrate, hrange, hsquelch,
      hholdoff, fun k hk => (hsource k hk).1, fun hc => (hsource _ hc).2 rfl⟩

/-! ## The entry stored (R10) -/

theorem service_raw {r : RawEntry} (h : r.service ≤ 1) : r.toEntry.raw.service = r.service := by
  rcases Nat.le_one_iff_eq_zero_or_eq_one.1 h with hs | hs <;>
    simp [RawEntry.toEntry, PlanEntry.raw, Service.ofCode, hs]

theorem gainMode_raw {r : RawEntry} (h : r.gainMode ≤ 1) : r.toEntry.raw.gainMode = r.gainMode := by
  rcases Nat.le_one_iff_eq_zero_or_eq_one.1 h with hm | hm <;>
    simp [RawEntry.toEntry, PlanEntry.raw, GainMode.ofCode, hm]

theorem gainMode_toEntry : ∀ n, n ≤ 1 → ((GainMode.ofCode n).getD .step = .ramp ↔ n = 1)
  | 0, _ | 1, _ => by simp [GainMode.ofCode]

theorem chanOf_eq_some {n : Nat} {c : Chan} : chanOf n = some c ↔ n = c.val := by
  unfold chanOf
  split
  · simp [Fin.ext_iff]
  · simp only [reduceCtorEq, false_iff]
    omega

theorem chanOf_val (c : Chan) : chanOf c.val = some c := chanOf_eq_some.2 rfl

theorem chanOf_none {n : Nat} : chanOf n = none ↔ 8 ≤ n := by
  unfold chanOf
  split <;> simp <;> omega

/-- A source that is a channel number is stored as it was submitted. -/
theorem squelchSource_raw {r : RawEntry} (h : ∀ k, r.squelchSource = some k → k ≤ 7) :
    r.toEntry.raw.squelchSource = r.squelchSource := by
  change (r.squelchSource.bind chanOf).map Fin.val = r.squelchSource
  cases hs : r.squelchSource with
  | none => rfl
  | some k =>
    have hk : k < 8 := Nat.lt_succ_of_le (h k hs)
    simp [chanOf, hk]

/-- An entry that passes the checks is stored field by field. -/
theorem toEntry_raw {raster : Nat} {c : Chan} {r : RawEntry} (h : EntryPasses raster c r) : r.toEntry.raw = r :=
  calc r.toEntry.raw
      = { r with
          service := r.toEntry.raw.service, gainMode := r.toEntry.raw.gainMode
          squelchSource := r.toEntry.raw.squelchSource } := rfl
    _ = r := by rw [service_raw h.service, gainMode_raw h.gainMode, squelchSource_raw h.source]

/-- The source stored is the channel submitted. -/
theorem toEntry_squelchSource {r : RawEntry} {c : Chan} (h : r.toEntry.squelchSource = some c) :
    r.squelchSource = some c.val := by
  obtain ⟨k, hk, hc⟩ := Option.bind_eq_some_iff.1 h
  rw [hk, chanOf_eq_some.1 hc]

/-- An entry that passes the checks, its level fields levels, is stored in the form of R1. -/
theorem toEntry_fits {raster : Nat} {c : Chan} {r : RawEntry} (h : EntryPasses raster c r) (hl : r.LevelsFit) :
    r.toEntry.Fits where
  rx := ⟨h.rx.1, h.rx.2.1⟩
  tx := ⟨h.tx.1, h.tx.2.1⟩
  differ := h.differ
  gain := h.gain
  rate := by
    rw [Bool.eq_iff_iff, decide_eq_true_eq]
    exact h.rate.trans (gainMode_toEntry _ h.gainMode).symm
  rateRange := h.rateRange
  squelch := h.squelch
  holdoff := h.holdoff
  openLevel := hl.openLevel
  closeLevel := hl.closeLevel
  reflLevel := hl.reflLevel

/-! ## The plan checks (R7) -/

theorem someInService_iff {t : PlanTable} {test : Chan → PlanEntry → Bool} :
    someInService t test = true ↔ ∃ d, (t.get d).service = .inService ∧ test d (t.get d) = true := by
  simp [someInService, PlanEntry.active]

theorem txClash_iff {t : PlanTable} {c : Chan} : txClash t c = true ↔
    ∃ d, d ≠ c ∧ (t.get d).service = .inService ∧ (t.get d).txFreq = (t.get c).txFreq := by
  simp only [txClash, someInService_iff, Bool.and_eq_true, decide_eq_true_eq]
  exact exists_congr fun d => and_left_comm

theorem rxTxClash_iff {t : PlanTable} {c : Chan} : rxTxClash t c = true ↔
    ∃ d, (t.get d).service = .inService ∧ (t.get d).rxFreq = (t.get c).txFreq := by
  simp only [rxTxClash, someInService_iff, decide_eq_true_eq]

theorem not_inService {e : PlanEntry} : ¬ e.service = .inService ↔ e.service = .outOfService := by
  cases e.service <;> simp

theorem sourceInvalid_iff {t : PlanTable} {c : Chan} : sourceInvalid t c = true ↔
    ∃ d, (t.get c).squelchSource = some d
      ∧ ((t.get d).service = .outOfService ∨ (t.get d).squelchSource ≠ none) := by
  unfold sourceInvalid
  cases (t.get c).squelchSource with
  | none => simp
  | some d => simp [PlanEntry.active, not_inService, Option.isSome_iff_ne_none]

theorem offRaster_iff {raster : Nat} {t : PlanTable} {c : Chan} : offRaster raster t c = true ↔
    (t.get c).rxFreq % raster ≠ 0 ∨ (t.get c).txFreq % raster ≠ 0 := by
  simp [offRaster]

/-- The plan checks of R7 in order, each with the detail it gives and the channels that fail it. -/
def planChecks (raster : Nat) (t : PlanTable) : List (Detail × (Chan → Bool)) :=
  [(.txClash, txClash t), (.rxTxClash, rxTxClash t), (.sourceInvalid, sourceInvalid t),
    (.offRaster, offRaster raster t)]

/-- The plan checks answer the first of the list that some in-service channel fails, and the lowest such channel. -/
theorem planFault_eq_findSome (raster : Nat) (t : PlanTable) :
    planFault raster t = (planChecks raster t).findSome? fun x => (failing t x.2).map fun c => (x.1, c) := by
  unfold planFault planChecks
  simp only [List.findSome?_cons, List.findSome?_nil]
  cases failing t (txClash t) with
  | some c => rfl
  | none =>
    cases failing t (rxTxClash t) with
    | some c => rfl
    | none =>
      cases failing t (sourceInvalid t) with
      | some c => rfl
      | none => cases failing t (offRaster raster t) <;> rfl

theorem failing_eq_find {t : PlanTable} {test : Chan → Bool} {P : Chan → Prop} [DecidablePred P]
    (h : ∀ c, test c = true ↔ P c) :
    failing t test = (List.finRange 8).find? fun c => decide ((t.get c).service = .inService) && decide (P c) := by
  unfold failing lowestChan
  congr 1
  funext c
  rw [show test c = decide (P c) by rw [Bool.eq_iff_iff, h c, decide_eq_true_eq]]
  rfl

theorem failing_none {t : PlanTable} {test : Chan → Bool} :
    failing t test = none ↔ ∀ c, (t.get c).service = .inService → test c = false := by
  simp [failing, lowestChan_none, PlanEntry.active]

theorem planFault_none {raster : Nat} {t : PlanTable} : planFault raster t = none ↔
    ∀ c, (t.get c).service = .inService →
      txClash t c = false ∧ rxTxClash t c = false ∧ sourceInvalid t c = false ∧ offRaster raster t c = false := by
  simp only [planFault_eq_findSome, planChecks, List.findSome?_eq_none_iff, List.forall_mem_cons,
    Option.map_eq_none_iff, failing_none, List.not_mem_nil, false_imp_iff, implies_true, and_true, ← forall_and]

theorem not_txClash_iff {t : PlanTable} {c : Chan} : txClash t c = false ↔
    ∀ d, (t.get d).service = .inService → c ≠ d → (t.get c).txFreq ≠ (t.get d).txFreq := by
  rw [← Bool.not_eq_true, txClash_iff, not_exists]
  exact forall_congr' fun d => ⟨fun h hd hne heq => h ⟨hne.symm, hd, heq.symm⟩,
    fun h ⟨hne, hd, heq⟩ => h hd hne.symm heq.symm⟩

theorem not_rxTxClash_iff {t : PlanTable} {c : Chan} : rxTxClash t c = false ↔
    ∀ d, (t.get d).service = .inService → (t.get c).txFreq ≠ (t.get d).rxFreq := by
  rw [← Bool.not_eq_true, rxTxClash_iff, not_exists]
  exact forall_congr' fun d => ⟨fun h hd heq => h ⟨hd, heq.symm⟩, fun h ⟨hd, heq⟩ => h hd heq.symm⟩

theorem not_sourceInvalid_iff {t : PlanTable} {c : Chan} : sourceInvalid t c = false ↔
    ∀ d, (t.get c).squelchSource = some d →
      (t.get d).service = .inService ∧ (t.get d).squelchSource = none := by
  rw [← Bool.not_eq_true, sourceInvalid_iff, not_exists]
  refine forall_congr' fun d => ?_
  rw [not_and, not_or, ← not_inService, not_not, not_not]

theorem not_offRaster_iff {raster : Nat} {t : PlanTable} {c : Chan} : offRaster raster t c = false ↔
    (t.get c).rxFreq % raster = 0 ∧ (t.get c).txFreq % raster = 0 := by
  rw [← Bool.not_eq_true, offRaster_iff, not_or, not_not, not_not]

/-- The plan checks pass exactly the tables whose in-service channels meet all four. -/
theorem planFault_none_iff (raster : Nat) (t : PlanTable) : planFault raster t = none ↔
    (∀ c d, (t.get c).service = .inService → (t.get d).service = .inService → c ≠ d →
      (t.get c).txFreq ≠ (t.get d).txFreq)
    ∧ (∀ c d, (t.get c).service = .inService → (t.get d).service = .inService →
      (t.get c).txFreq ≠ (t.get d).rxFreq)
    ∧ (∀ c d, (t.get c).service = .inService → (t.get c).squelchSource = some d →
      (t.get d).service = .inService ∧ (t.get d).squelchSource = none)
    ∧ (∀ c, (t.get c).service = .inService → (t.get c).rxFreq % raster = 0 ∧ (t.get c).txFreq % raster = 0) := by
  simp only [planFault_none, not_txClash_iff, not_rxTxClash_iff, not_sourceInvalid_iff, not_offRaster_iff]
  constructor
  · intro h
    exact ⟨fun c d hc => (h c hc).1 d, fun c d hc => (h c hc).2.1 d, fun c d hc => (h c hc).2.2.1 d,
      fun c hc => (h c hc).2.2.2⟩
  · rintro ⟨htx, hrx, hsource, hraster⟩ c hc
    exact ⟨fun d => htx c d hc, fun d => hrx c d hc, fun d => hsource c d hc, hraster c hc⟩

/-- Settles O19: each chain of refusals is the first failing check of a list, and passing is meeting them all. -/
theorem checksPassExactlyValidEntriesAndTables : Obligations.ChecksPassExactlyValidEntriesAndTables := by
  refine ⟨fun raster c r => entryFault_none.trans entryPasses_iff, planFault_none_iff,
    fun raster c r => ⟨entryFault_eq_firstFault raster c r, fun h => toEntry_raw (entryFault_none.1 h)⟩,
    fun raster t => ?_⟩
  simp only [planFault_eq_findSome, planChecks, List.findSome?_cons, List.findSome?_nil,
    failing_eq_find fun c => txClash_iff,
    failing_eq_find fun c => rxTxClash_iff, failing_eq_find fun c => sourceInvalid_iff,
    failing_eq_find fun c => offRaster_iff]

end Sys2Proof.Proofs.ChannelPlan

/-! # The laws of the plan, kept by every step -/

namespace Sys2Proof.Proofs.ChannelPlan

open Sys2Proof Sys2Proof.Machine

/-! ## Entry changes and requests that come under way -/

theorem takesOf_isEntryChange {c : Instr} (d : Chan) (hc : ∀ x, c ≠ .entryChange x) {m : Message}
    (h : takesOf c m = true) : m.isEntryChange d = false := by
  cases m with
  | entryChange x e =>
    cases c with
    | entryChange y => exact absurd rfl (hc y)
    | _ => cases h
  | _ => rfl

/-- Of the commands that are neither a reset nor the Plan Controller's none sends an entry change. -/
theorem carried_without_entryChange {c : Instr} {s t : State} (hr : blockOf c ≠ .reset) (hp : blockOf c ≠ .plan)
    (h : exec c s = .next t) :
    ∃ sends, Carried (takesOf c) sends s.transit t.transit ∧ ∀ m, sends m = true → m.isAnyEntryChange = false := by
  by_cases hm : blockOf c = .mode
  · refine ⟨_, mode_carried hm h, fun m hs => ?_⟩
    cases m <;> first | rfl | cases hs
  by_cases hb : blockOf c = .ports
  · refine ⟨_, (ports_sent hb h).carried, fun m hs => ?_⟩
    cases m <;> first | rfl | cases hs
  · refine ⟨_, ordinary_carried hr hp hm hb h, fun m hs => ?_⟩
    cases m <;> first | rfl | cases hs

/-- An entry change under way after a command was under way before, or carries the channel's active entry. -/
theorem entryChange_of_exec {c : Instr} {s t : State} {d : Chan} {e : PlanEntry} (hr : blockOf c ≠ .reset)
    (h : exec c s = .next t) (hm : Message.entryChange d e ∈ t.transit) :
    Message.entryChange d e ∈ s.transit ∨ e = t.plan.active.get d := by
  by_cases hp : blockOf c = .plan
  · obtain ⟨⟨before, after, hcar, ht, hafter⟩, -⟩ :=
      plan_command (G := fun _ _ => True) hp h (fun _ => trivial) (fun _ => ⟨trivial, trivial⟩)
        (fun _ _ _ _ _ _ _ _ => trivial)
    simp only [ht, List.mem_append] at hm
    rcases hm with (hm | hm) | hm
    · exact Or.inl ((hcar.mem hm).resolve_right Bool.noConfusion)
    · obtain ⟨x, -, hx⟩ := mem_entryChanges.1 hm
      cases hx
      exact Or.inr rfl
    · cases hafter _ hm
  · obtain ⟨sends, hcar, hs⟩ := carried_without_entryChange hr hp h
    exact Or.inl ((hcar.mem hm).resolve_right fun hx => Bool.noConfusion (hs _ hx))

/-- What the level fields of a message hold, where it is a request to stage an entry. -/
def AskedLevelsFit : Message → Prop
  | .request _ _ _ (.stageEntry _ r) => r.LevelsFit
  | _ => True

/-- A request under way after a command was under way before, or a frame spelled it and its level fields hold levels. -/
theorem stageEntry_of_exec {c : Instr} {s t : State} {o : Owner} {p : Port} {tag : Option Byte} {n : Nat} {r : RawEntry}
    (hr : blockOf c ≠ .reset) (h : exec c s = .next t) (hm : Message.request o p tag (.stageEntry n r) ∈ t.transit) :
    Message.request o p tag (.stageEntry n r) ∈ s.transit ∨ r.LevelsFit := by
  by_cases hb : blockOf c = .ports
  · classical
    have hsent : Sent (fun m => decide (AskedLevelsFit m)) s t :=
      ports_send_requests hb h (decide_eq_true trivial) fun o p tag code payload body hq => decide_eq_true <| by
        cases body <;> first | exact parseRequest_levelsFit hq | exact trivial
    exact (hsent.carried (takes := fun _ => true)).mem hm |>.imp_right of_decide_eq_true
  · refine Or.inl ?_
    by_cases hp : blockOf c = .plan
    · exact ((plan_carried hp h).mem hm).resolve_right Bool.noConfusion
    by_cases hmode : blockOf c = .mode
    · exact ((mode_carried hmode h).mem hm).resolve_right Bool.noConfusion
    · exact ((ordinary_carried hr hp hmode hb h).mem hm).resolve_right Bool.noConfusion

/-! ## The working entry follows the active plan (R5) -/

theorem workingFollowsActive_iff {s : State} :
    s.WorkingFollowsActive ↔ ∀ c, lastEntry c s.transit (workingEntry c s) = s.plan.active.get c := Iff.rfl

theorem resetValues_entry (phase : Phase) (s : State) (c : Chan) :
    ((s.resetValues phase).channels.get c).entry = PlanEntry.default := by
  simp [State.resetValues, Channel.atReset]

/-- After a reset every working and active entry is the default entry and nothing is under way. -/
theorem resetValues_workingFollowsActive (phase : Phase) (s : State) : (s.resetValues phase).WorkingFollowsActive := by
  intro c
  rw [resetValues_entry]
  simp [State.resetValues, State.reset, PlanController.atReset, PlanTable.default, lastEntry]

theorem endReset_entry (pins : PinSample) (s : State) (c : Chan) :
    ((s.endReset pins).channels.get c).entry = (s.channels.get c).entry := by
  simp [State.endReset, Channel.sampleLocks]

/-- What the commands of a reset do: every block at its reset values, nothing, or the end of the reset. -/
theorem reset_cases {c : Instr} {s t : State} (hr : blockOf c = .reset) (h : exec c s = .next t) :
    (∃ phase, t = s.resetValues phase) ∨ t = s ∨ ∃ pins, t = s.endReset pins := by
  rcases block_reset hr with rfl | rfl | ⟨pins, rfl⟩
  · cases h
    exact Or.inl ⟨_, rfl⟩
  · cases h
    exact Or.inl ⟨_, rfl⟩
  · simp only [exec, execEndOfHardwareReset, Host.Outcome.next.injEq] at h
    subst h
    split
    · exact Or.inr (Or.inr ⟨pins, rfl⟩)
    · exact Or.inr (Or.inl rfl)

theorem reset_keeps_workingFollowsActive {c : Instr} {s t : State} (hs : s.WorkingFollowsActive)
    (hr : blockOf c = .reset) (h : exec c s = .next t) : t.WorkingFollowsActive := by
  rcases reset_cases hr h with ⟨phase, rfl⟩ | rfl | ⟨pins, rfl⟩
  · exact resetValues_workingFollowsActive _ _
  · exact hs
  · intro d
    rw [endReset_entry]
    exact hs d

theorem plan_keeps_workingFollowsActive {c : Instr} {s t : State} (hs : s.WorkingFollowsActive)
    (hp : blockOf c = .plan) (h : exec c s = .next t) : t.WorkingFollowsActive := by
  obtain ⟨⟨before, after, hcar, ht, hafter⟩, -⟩ :=
    plan_command (G := fun _ _ => True) hp h (fun _ => trivial) (fun _ => ⟨trivial, trivial⟩)
      (fun _ _ _ _ _ _ _ _ => trivial)
  have hch : t.channels = s.channels := channels_other h (by simp [hp]) (by simp [hp])
  have hne : ∀ x, c ≠ .entryChange x := by rintro x rfl; cases hp
  intro d
  have hbefore : lastEntry d before (s.channels.get d).entry = s.plan.active.get d :=
    (lastEntry_carried _ hcar (fun m => takesOf_isEntryChange d hne) fun m => isEntryChange_of_ordinary d).trans (hs d)
  rw [hch, ht, lastEntry_append, lastEntry_append, hbefore, lastEntry_entryChanges,
    lastEntry_of_none _ fun m hm => isEntryChange_of_ordinary d (hafter m hm)]

theorem entryChange_keeps_workingFollowsActive {c : Chan} {s t : State} (hs : s.WorkingFollowsActive)
    (h : exec (.entryChange c) s = .next t) : t.WorkingFollowsActive := by
  rcases entryChange_cases h with rfl | ⟨e, ms, sent, hp, ht, hsent, hplan, hentry⟩
  · exact hs
  · rw [workingFollowsActive_iff] at hs ⊢
    intro d
    rw [hentry, ht, lastEntry_append, lastEntry_of_none (l := sent) _ fun m hm =>
      isEntryChange_of_ordinary d (hsent m hm), hplan, ← hs d]
    split
    · rename_i hcd
      subst hcd
      exact lastEntry_pull_entryChange _ hp
    · rename_i hcd
      exact lastEntry_pull _ hp (by simpa [Message.isEntryChange] using hcd)

theorem workingEntry_other {c : Instr} {s t : State} (d : Chan) (hr : blockOf c ≠ .reset)
    (hne : ∀ x, c ≠ .entryChange x) (h : exec c s = .next t) : workingEntry d t = workingEntry d s := by
  by_cases hc : blockOf c = .channels
  · exact channels_workingEntry d hc hne h
  · unfold workingEntry
    rw [channels_other h hr hc]

theorem exec_keeps_workingFollowsActive {c : Instr} {s t : State} (hs : s.WorkingFollowsActive)
    (h : exec c s = .next t) : t.WorkingFollowsActive := by
  by_cases hr : blockOf c = .reset
  · exact reset_keeps_workingFollowsActive hs hr h
  by_cases hp : blockOf c = .plan
  · exact plan_keeps_workingFollowsActive hs hp h
  by_cases hne : ∀ x, c ≠ .entryChange x
  · obtain ⟨sends, hcar, hsends⟩ := carried_without_entryChange hr hp h
    rw [workingFollowsActive_iff] at hs ⊢
    intro d
    rw [plan_other h hr hp, workingEntry_other d hr hne h, ← hs d]
    refine lastEntry_carried _ hcar (fun m => takesOf_isEntryChange d hne) fun m hm => ?_
    have := hsends m hm
    cases m <;> first | rfl | cases this
  · obtain ⟨x, rfl⟩ := not_forall_not.1 hne
    exact entryChange_keeps_workingFollowsActive hs h

/-- Settles O7: entry changes are sent exactly where a write of the active plan changes an entry, and are taken in the
order sent. -/
theorem workingEntryFollowsActivePlan : Obligations.WorkingEntryFollowsActivePlan := by
  intro s t hs h
  exact step_keeps (P := State.WorkingFollowsActive) (fun _ _ hs => hs) (fun _ hs _ => hs)
    (fun _ _ _ => exec_keeps_workingFollowsActive) hs h

/-! ## The form of every entry (R1, R6) -/

/-- The form of an entry stored for a channel. -/
def EntryHolds (c : Chan) (e : PlanEntry) : Prop := e.Fits ∧ e.squelchSource ≠ some c

theorem default_holds (c : Chan) : EntryHolds c PlanEntry.default := by
  refine ⟨?_, nofun⟩
  constructor <;> simp [PlanEntry.default, IsLevel]

theorem default_get_holds (c : Chan) : EntryHolds c (PlanTable.default.get c) := by
  simpa [PlanTable.default] using default_holds c

theorem toEntry_holds {raster : Nat} {c : Chan} {r : RawEntry} (h : entryFault raster c r = none) (hl : r.LevelsFit) :
    EntryHolds c r.toEntry :=
  have hp := entryFault_none.1 h
  ⟨toEntry_fits hp hl, fun hc => hp.otherSource (toEntry_squelchSource hc)⟩

theorem resetValues_entriesFit (phase : Phase) (s : State) : (s.resetValues phase).EntriesFit where
  staged := default_get_holds
  active := default_get_holds
  working c := (resetValues_entry phase s c).symm ▸ default_holds c
  sent _ _ h := nomatch h
  asked _ _ _ _ _ h := nomatch h

theorem reset_keeps_entriesFit {c : Instr} {s t : State} (hs : s.EntriesFit) (hr : blockOf c = .reset)
    (h : exec c s = .next t) : t.EntriesFit := by
  rcases reset_cases hr h with ⟨phase, rfl⟩ | rfl | ⟨pins, rfl⟩
  · exact resetValues_entriesFit _ _
  · exact hs
  · exact ⟨hs.staged, hs.active, fun d => endReset_entry pins s d ▸ hs.working d, hs.sent, hs.asked⟩

/-- Both tables keep the form: the entries written are default entries, entries of the other table, and submitted ones
that passed the checks. -/
theorem exec_keeps_tables {c : Instr} {s t : State} (hs : s.EntriesFit) (hr : blockOf c ≠ .reset)
    (h : exec c s = .next t) : TablesHold EntryHolds t.plan := by
  have htables : TablesHold EntryHolds s.plan := fun d => ⟨hs.staged d, hs.active d⟩
  by_cases hp : blockOf c = .plan
  · exact (plan_command hp h default_holds htables fun o p tag n r hm d hf =>
      toEntry_holds hf (hs.asked o p tag n r hm)).tables
  · rw [plan_other h hr hp]
    exact htables

theorem exec_keeps_working {c : Instr} {s t : State} (hs : s.EntriesFit) (hr : blockOf c ≠ .reset)
    (h : exec c s = .next t) (d : Chan) : EntryHolds d (workingEntry d t) := by
  by_cases hne : ∀ x, c ≠ .entryChange x
  · rw [workingEntry_other d hr hne h]
    exact hs.working d
  · obtain ⟨x, rfl⟩ := not_forall_not.1 hne
    rcases entryChange_cases h with rfl | ⟨e, ms, sent, hp, -, -, -, hentry⟩
    · exact hs.working d
    · rw [hentry]
      split
      · rename_i hxd
        subst hxd
        obtain ⟨-, l₁, l₂, hl, -, -⟩ := pull_some hp
        exact hs.sent x e (by simp [hl])
      · exact hs.working d

theorem exec_keeps_entriesFit {c : Instr} {s t : State} (hs : s.EntriesFit) (h : exec c s = .next t) :
    t.EntriesFit := by
  by_cases hr : blockOf c = .reset
  · exact reset_keeps_entriesFit hs hr h
  · have htables := exec_keeps_tables hs hr h
    refine ⟨fun d => (htables d).1, fun d => (htables d).2, exec_keeps_working hs hr h, fun d e hm => ?_,
      fun o p tag n r hm => ?_⟩
    · rcases entryChange_of_exec hr h hm with hm | rfl
      · exact hs.sent d e hm
      · exact (htables d).2
    · exact (stageEntry_of_exec hr h hm).elim (hs.asked o p tag n r) id

/-- Settles O6: what enters a table has passed the entry checks or was in a table, entry changes carry active entries,
and the level fields of a submitted entry come from two-byte levels. -/
theorem entryFormKeptByEveryStep : Obligations.EntryFormKeptByEveryStep := by
  intro s t hs h
  exact step_keeps (P := State.EntriesFit) (fun _ _ hs => ⟨hs.staged, hs.active, hs.working, hs.sent, hs.asked⟩)
    (fun _ hs _ => ⟨hs.staged, hs.active, hs.working, hs.sent, hs.asked⟩) (fun _ _ _ => exec_keeps_entriesFit) hs h

end Sys2Proof.Proofs.ChannelPlan

/-! # Edits, items and defaults of the plan -/

namespace Sys2Proof.Proofs.ChannelPlan

open Sys2Proof Sys2Proof.Machine

/-! ## Edits of the staged plan, examined in order (R9) -/

section Editing

variable {p : Port} {b : Bool} {f : State → Reply × State} {s : State}

theorem editing_of_not (h : ¬ Holds s p) : editing p b f s = (.plain .role .none_, s) := holderOnly_of_not h

theorem editing_of_pending (h : Holds s p) (hp : s.plan.pendingActivation.isSome) :
    editing p b f s = (.plain .state .activationPending, s) := by
  unfold editing
  rw [holderOnly_of_holds h, if_pos hp]
  rfl

theorem editing_of_perEntry (h : Holds s p) (hp : s.plan.pendingActivation = none) (ha : s.plan.applyMode = .perEntry)
    (hm : s.mode.mode = .operate) : editing p true f s = (.plain .state .applyMode, s) := by
  unfold editing
  rw [holderOnly_of_holds h, if_neg (by simp [hp]), if_pos ⟨rfl, ha, hm⟩]
  rfl

theorem editing_of_passes (h : Holds s p) (hp : s.plan.pendingActivation = none)
    (hn : b = true → s.plan.applyMode = .wholePlan ∨ s.mode.mode = .standby) : editing p b f s = f s := by
  have hedit : ¬ (b = true ∧ s.plan.applyMode = .perEntry ∧ s.mode.mode = .operate) := by
    rintro ⟨hb, ha, hm⟩
    rcases hn hb with hx | hx
    · simp [ha] at hx
    · simp [hm] at hx
  unfold editing
  rw [holderOnly_of_holds h, if_neg (by simp [hp]), if_neg hedit]

theorem editing_entry_of_passes (h : Holds s p) (hp : s.plan.pendingActivation = none) : editing p false f s = f s :=
  editing_of_passes h hp nofun

end Editing

/-- The state in which a request was asked is the one with it taken, but for what is under way. -/
theorem asked_from {o : Owner} {p : Port} {tag : Option Byte} {body : Request} {s s' : State}
    (h : Asked o p tag body s s') : ∃ l, s = { s' with transit := l } := by
  obtain ⟨ms, rfl⟩ := asked_transit h
  exact ⟨s.transit, rfl⟩

/-- STAGE ENTRY asked: its reply goes back through the port. -/
theorem exec_stageEntry {p : Port} {tag : Option Byte} {n : Nat} {r : RawEntry} {s s' t : State} {x : Reply}
    (h : Asked .plan p tag (.stageEntry n r) s s') (hx : editing p false (stageEntry n r) s' = (x, t)) :
    exec (.stageEntry p) s = .next (t.answer p tag x) :=
  congrArg Host.Outcome.next (serve_asked h (congrArg some hx))

/-! ## STAGE ENTRY (R9, R10) -/

theorem stageEntry_of_no_channel {n : Nat} {r : RawEntry} {s : State} (h : 8 ≤ n) :
    stageEntry n r s = (.plain .range .channel, s) := by
  unfold stageEntry
  rw [chanOf_none.2 h]
  rfl

theorem stageEntry_of_fault {c : Chan} {r : RawEntry} {s : State} {d : Detail}
    (h : entryFault s.plan.raster c r = some d) : stageEntry c.val r s = (.refused .range d (chanNumber c), s) := by
  unfold stageEntry
  simp only [chanOf_val, h]

theorem stageEntry_of_passes {c : Chan} {r : RawEntry} {s : State} (h : entryFault s.plan.raster c r = none) :
    stageEntry c.val r s = storeEntry c r.toEntry s := by
  unfold stageEntry
  simp only [chanOf_val, h]

theorem storeEntry_wholePlan {c : Chan} {e : PlanEntry} {s : State} (h : s.plan.applyMode = .wholePlan) :
    storeEntry c e s = (.done [], { s with plan := s.plan.stage c e }) := by
  unfold storeEntry
  rw [h]

/-- Settles O20: the steps of R9 in order, then the write of R10. -/
theorem stageEntryWritesStagedPlan : Obligations.StageEntryWritesStagedPlan := by
  intro p tag n r s s' h
  obtain ⟨l, rfl⟩ := asked_from h
  refine ⟨fun hh => exec_stageEntry h (editing_of_not hh), fun hh hp => exec_stageEntry h (editing_of_pending hh hp),
    fun hh hp hn => exec_stageEntry h ?_, fun c d hh hp hn hf => exec_stageEntry h ?_,
    fun c hh hp hn hf hm => exec_stageEntry h ?_⟩
  · rw [editing_entry_of_passes (s := s') hh hp, stageEntry_of_no_channel hn]
  · rw [editing_entry_of_passes (s := s') hh hp, hn, stageEntry_of_fault (s := s') hf]
    rfl
  · rw [editing_entry_of_passes (s := s') hh hp, hn, stageEntry_of_passes (s := s') hf,
      storeEntry_wholePlan (s := s') hm]
    rfl

/-! ## STAGE ENTRY under PER_ENTRY (R11, R64) -/

theorem entryChanges_eq (old new : PlanTable) : entryChanges old new =
    ((List.finRange 8).filter fun c => decide (old.get c ≠ new.get c)).map fun c => .entryChange c (new.get c) := by
  unfold entryChanges
  rw [← List.filterMap_eq_filter, List.map_filterMap]
  congr 1
  funext c
  by_cases h : old.get c = new.get c <;> simp [h, Option.guard]

theorem filter_one_channel : ∀ c : Chan, (List.finRange 8).filter (fun d => decide (d = c)) = [c] := by decide

/-- The write of one entry sends one entry change, where the entry differs. -/
theorem entryChanges_put (t : PlanTable) (c : Chan) (e : PlanEntry) :
    entryChanges t (put t c e) = if t.get c = e then [] else [.entryChange c e] := by
  split
  · rename_i h
    rw [← h, put_self, entryChanges_self]
  · rename_i h
    have hone : ((List.finRange 8).filter fun d => decide (t.get d ≠ (put t c e).get d)) = [c] := by
      rw [← filter_one_channel c]
      refine List.filter_congr fun d _ => ?_
      by_cases hd : c = d
      · subst hd
        simp [h]
      · simp [hd, Ne.symm hd]
    rw [entryChanges_eq, hone]
    simp

theorem writePlan_applyEntry (c : Chan) (e : PlanEntry) (s : State) :
    s.writePlan (s.plan.applyEntry c e) =
      { s with
        plan := { s.plan with
          staged := put s.plan.staged c e, active := put s.plan.active c e
          revision := s.plan.revision + 1 }
        transit := s.transit ++ (if s.plan.active.get c = e then [] else [.entryChange c e]) } := by
  rw [← entryChanges_put]
  rfl

theorem retuning_iff {x : ChannelState} : x.retuning = true ↔ x = .tuning ∨ x = .settling := by
  cases x <;> simp [ChannelState.retuning]

theorem storeEntry_standby {c : Chan} {e : PlanEntry} {s : State} (ha : s.plan.applyMode = .perEntry)
    (hm : s.mode.mode = .standby) : storeEntry c e s = (.done [], s.writePlan (s.plan.applyEntry c e)) := by
  unfold storeEntry
  rw [ha, hm]

theorem storeEntry_operate {c : Chan} {e : PlanEntry} {s : State} (ha : s.plan.applyMode = .perEntry)
    (hm : s.mode.mode = .operate) : storeEntry c e s = applyInOperate c e s := by
  unfold storeEntry
  rw [ha, hm]

theorem applyInOperate_of_invalid {c : Chan} {e : PlanEntry} {s : State} {x : Reply}
    (h : s.validate (put s.plan.active c e) = some x) : applyInOperate c e s = (x, s) := by
  unfold applyInOperate
  rw [h]

theorem applyInOperate_of_busy {c : Chan} {e : PlanEntry} {s : State} (h : s.validate (put s.plan.active c e) = none)
    (hc : (s.channels.get c).state = .tuning ∨ (s.channels.get c).state = .settling) :
    applyInOperate c e s = (.refused .notReady .sequencerBusy (chanNumber c), s) := by
  unfold applyInOperate
  rw [h]
  exact if_pos (retuning_iff.2 hc)

theorem applyInOperate_of_ready {c : Chan} {e : PlanEntry} {s : State} (h : s.validate (put s.plan.active c e) = none)
    (hc : (s.channels.get c).state ≠ .tuning ∧ (s.channels.get c).state ≠ .settling) :
    applyInOperate c e s = (.done [], s.writePlan (s.plan.applyEntry c e)) := by
  unfold applyInOperate
  rw [h]
  exact if_neg fun hr => not_or.2 hc (retuning_iff.1 hr)

/-- Settles O21: the write of both tables sends one entry change, where the active entry differs. -/
theorem stageEntryPerEntryWritesBothTables : Obligations.StageEntryPerEntryWritesBothTables := by
  intro p tag c r s s' h hh hp hf ha
  obtain ⟨l, rfl⟩ := asked_from h
  have hstore : editing p false (stageEntry c.val r) s' = storeEntry c r.toEntry s' := by
    rw [editing_entry_of_passes (s := s') hh hp, stageEntry_of_passes (s := s') hf]
  refine ⟨fun hm => exec_stageEntry h (hstore.trans ?_), fun x hm hv => exec_stageEntry h (hstore.trans ?_),
    fun hm hv hc => exec_stageEntry h (hstore.trans ?_)⟩
  · rw [← writePlan_applyEntry (s := s')]
    rcases hm with hm | ⟨hm, hv, hc⟩
    · exact storeEntry_standby ha hm
    · exact (storeEntry_operate (s := s') ha hm).trans (applyInOperate_of_ready hv hc)
  · exact (storeEntry_operate (s := s') ha hm).trans (applyInOperate_of_invalid hv)
  · exact (storeEntry_operate (s := s') ha hm).trans (applyInOperate_of_busy hv hc)

/-! ## STAGE CLEAR and STAGE COPY (R12, R13) -/

/-- Both requests are edits that write one table into the staged plan. -/
theorem exec_stageTable {p : Port} {tag : Option Byte} {s s' t : State} {i : Instr} {q : Request} {table : PlanTable}
    {x : Reply}
    (hi : i = .stageClear p ∧ q = .stageClear ∧ (∀ c, table.get c = PlanEntry.default)
      ∨ i = .stageCopy p ∧ q = .stageCopy ∧ table = s.plan.active)
    (h : Asked .plan p tag q s s')
    (hx : editing p true (fun s => (.done [], { s with plan := { s.plan with staged := table } })) s' = (x, t)) :
    exec i s = .next (t.answer p tag x) := by
  obtain ⟨ms, rfl⟩ := asked_transit h
  rcases hi with ⟨rfl, rfl, htable⟩ | ⟨rfl, rfl, rfl⟩
  · obtain rfl : table = PlanTable.default := ext_get fun c => by rw [htable, PlanTable.default, replicate_get]
    exact congrArg Host.Outcome.next (serve_asked h (congrArg some hx))
  · refine congrArg Host.Outcome.next (serve_asked h (congrArg some ?_))
    rw [← hx]
    rfl

/-- Settles O22: both requests are one edit, with the table they write as its operand. -/
theorem stageClearAndCopyWriteStagedPlan : Obligations.StageClearAndCopyWriteStagedPlan := by
  refine ⟨rfl, fun p tag s s' i q table hi h => ?_⟩
  obtain ⟨ms, rfl⟩ := asked_transit h
  exact ⟨fun hh => exec_stageTable hi h (editing_of_not hh),
    fun hh hp => exec_stageTable hi h (editing_of_pending hh hp),
    fun hh hp ha hm => exec_stageTable hi h (editing_of_perEntry hh hp ha hm),
    fun hh hp hm => exec_stageTable hi h (editing_of_passes hh hp fun _ => hm)⟩

/-! ## APPLY_MODE and RASTER (R17, R18) -/

theorem beNat_one (v : Byte) : beNat [v] = v.toNat := by simp [beNat]

theorem beNat_two (hi lo : Byte) : beNat [hi, lo] = 256 * hi.toNat + lo.toNat := by simp [beNat]

/-- A CONFIGURE for the holder alone, asked: its reply goes back through the port. -/
theorem configureItem_holderOnly {i : Item} {p : Port} {tag : Option Byte} {value : List Byte} {s s' t : State}
    {f : List Byte → State → Reply × State} {x : Reply} (h : Asked i.owner p tag (.configure i value) s s')
    (hx : holderOnly p (f value) s' = (x, t)) :
    configureItem i p (fun v => holderOnly p (f v)) s = t.answer p tag x := by
  rw [configureItem_asked h, hx]

theorem exec_configureApplyMode {p : Port} {tag : Option Byte} {value : List Byte} {s s' t : State} {x : Reply}
    (h : Asked .plan p tag (.configure .applyMode value) s s')
    (hx : holderOnly p (setApplyMode value) s' = (x, t)) :
    exec (.configureApplyMode p) s = .next (t.answer p tag x) :=
  congrArg Host.Outcome.next (configureItem_holderOnly (i := .applyMode) h hx)

theorem exec_configureRaster {p : Port} {tag : Option Byte} {value : List Byte} {s s' t : State} {x : Reply}
    (h : Asked .plan p tag (.configure .raster value) s s') (hx : holderOnly p (setRaster value) s' = (x, t)) :
    exec (.configureRaster p) s = .next (t.answer p tag x) :=
  congrArg Host.Outcome.next (configureItem_holderOnly (i := .raster) h hx)

theorem applyMode_ofCode_none {v : Byte} (h0 : v ≠ 0) (h1 : v ≠ 1) : ApplyMode.ofCode v.toNat = none := by
  unfold ApplyMode.ofCode
  split
  · rename_i h
    exact absurd (BitVec.eq_of_toNat_eq h) h0
  · rename_i h
    exact absurd (BitVec.eq_of_toNat_eq h) h1
  · rfl

section SetItems

variable {s : State}

theorem setApplyMode_of_pending {value : List Byte} (h : s.plan.pendingActivation.isSome) :
    setApplyMode value s = (.plain .state .activationPending, s) := if_pos h

theorem setApplyMode_of_none {v : Byte} (hp : s.plan.pendingActivation = none) (h0 : v ≠ 0) (h1 : v ≠ 1) :
    setApplyMode [v] s = (.plain .range .value, s) := by
  unfold setApplyMode
  rw [if_neg (by simp [hp]), beNat_one, applyMode_ofCode_none h0 h1]
  rfl

theorem setApplyMode_of_code {v : Byte} {m : ApplyMode} (hp : s.plan.pendingActivation = none)
    (h : v = 0 ∧ m = .wholePlan ∨ v = 1 ∧ m = .perEntry) :
    setApplyMode [v] s = (.done [0x01, v], { s with plan := { s.plan with applyMode := m } }) := by
  unfold setApplyMode
  rw [if_neg (by simp [hp])]
  rcases h with ⟨rfl, rfl⟩ | ⟨rfl, rfl⟩ <;> rfl

theorem setRaster_of_operate {value : List Byte} (h : s.mode.mode = .operate) :
    setRaster value s = (.plain .mode .none_, s) := if_pos h

theorem setRaster_of_out {value : List Byte} (hm : s.mode.mode = .standby)
    (h : beNat value = 0 ∨ 1000 < beNat value) : setRaster value s = (.plain .range .value, s) := by
  unfold setRaster
  rw [if_neg (by simp [hm]), if_neg (by omega)]
  rfl

theorem setRaster_of_within {value : List Byte} (hm : s.mode.mode = .standby) (h : 1 ≤ beNat value)
    (h' : beNat value ≤ 1000) :
    setRaster value s = (.done (0x02 :: value), { s with plan := { s.plan with raster := beNat value } }) := by
  unfold setRaster
  rw [if_neg (by simp [hm]), if_pos ⟨h, h'⟩]
  rfl

end SetItems

/-- Settles O23: role, then state or mode, then range, then the item set. -/
theorem applyModeAndRasterConfigured : Obligations.ApplyModeAndRasterConfigured := by
  intro p tag s s'
  refine ⟨fun v h => ?_, fun hi lo h => ?_, fun h => ?_, fun h => ?_⟩
  · obtain ⟨l, rfl⟩ := asked_from h
    exact ⟨fun hh => exec_configureApplyMode h (holderOnly_of_not hh),
      fun hh hp => exec_configureApplyMode h ((holderOnly_of_holds (s := s') hh).trans (setApplyMode_of_pending hp)),
      fun hh hp h0 h1 => exec_configureApplyMode h
        ((holderOnly_of_holds (s := s') hh).trans (setApplyMode_of_none hp h0 h1)),
      fun m hh hp hm => exec_configureApplyMode h
        ((holderOnly_of_holds (s := s') hh).trans (setApplyMode_of_code hp hm))⟩
  · obtain ⟨l, rfl⟩ := asked_from h
    rw [← beNat_two]
    exact ⟨fun hh => exec_configureRaster h (holderOnly_of_not hh),
      fun hh hm => exec_configureRaster h ((holderOnly_of_holds (s := s') hh).trans (setRaster_of_operate hm)),
      fun hh hm hv => exec_configureRaster h ((holderOnly_of_holds (s := s') hh).trans (setRaster_of_out hm hv)),
      fun hh hm hv hv' => exec_configureRaster h
        ((holderOnly_of_holds (s := s') hh).trans (setRaster_of_within hm hv hv'))⟩
  · obtain ⟨l, rfl⟩ := asked_from h
    exact congrArg Host.Outcome.next (readItem_asked (i := .applyMode) h)
  · obtain ⟨l, rfl⟩ := asked_from h
    exact congrArg Host.Outcome.next (readItem_asked (i := .raster) h)

/-! ## The defaults restored (R20) -/

theorem initializePlan_transit (s : State) : s.initializePlan.transit =
    s.transit ++ (if s.plan.pendingActivation.isSome then [.occurrence SiteKind.activationAbandoned.slot] else [])
      ++ entryChanges s.plan.active PlanTable.default := by
  unfold State.initializePlan
  split <;> simp [PlanController.atReset]

/-- Only the plan and what is under way change. -/
theorem initializePlan_frame (s : State) :
    s.initializePlan = { s with plan := PlanController.atReset, transit := s.initializePlan.transit } := by
  unfold State.initializePlan
  split <;> rfl

theorem default_get (c : Chan) : PlanTable.default.get c = PlanEntry.default := replicate_get _ _

theorem entryChanges_default (t : PlanTable) : entryChanges t PlanTable.default =
    ((List.finRange 8).filter fun c => decide (t.get c ≠ PlanEntry.default)).map
      fun c => .entryChange c PlanEntry.default := by
  simp only [entryChanges_eq, default_get]

theorem initializePlan_plan (s : State) : s.initializePlan.plan = PlanController.atReset :=
  congrArg State.plan (initializePlan_frame s)

/-- Settles O24: the occurrence of the abandoned record goes ahead of the entry changes to the default table. -/
theorem planInitializeRestoresDefaults : Obligations.PlanInitializeRestoresDefaults := by
  intro s s' h
  refine ⟨State.send [.initReport .planController] s'.initializePlan,
    congrArg Host.Outcome.next (takeInitNotice_some h), ?_, ?_⟩
  · rw [initializePlan_frame]
    rfl
  · obtain ⟨ms, -, rfl⟩ := take_some h
    rw [State.send_plan, initializePlan_plan]
    refine ⟨default_get, default_get, rfl, rfl, rfl, rfl, rfl, ?_⟩
    rw [State.send_transit, initializePlan_transit, entryChanges_default]

end Sys2Proof.Proofs.ChannelPlan

/-! # Readings and the records they return -/

namespace Sys2Proof.Proofs.ChannelPlan

open Sys2Proof Sys2Proof.Machine

/-! ## READ ENTRY (R16) and READ LICENCE (R31) -/

theorem exec_readEntry {p : Port} {tag : Option Byte} {table n : Nat} {s s' : State} {x : Reply}
    (h : Asked .plan p tag (.readEntry table n) s s') (hx : readEntryReply table n s' = x) :
    exec (.readEntry p) s = .next (s'.answer p tag x) :=
  congrArg Host.Outcome.next (serve_asked h (congrArg (fun x => some (x, s')) hx))

theorem exec_readLicence {p : Port} {tag : Option Byte} {table n : Nat} {s s' : State} {x : Reply}
    (h : Asked .licence p tag (.readLicence table n) s s') (hx : readLicenceReply table n s' = x) :
    exec (.readLicence p) s = .next (s'.answer p tag x) :=
  congrArg Host.Outcome.next (serve_asked h (congrArg (fun x => some (x, s')) hx))

theorem planTable_none (k : PlanController) : ∀ {n : Nat}, 2 ≤ n → k.table n = none
  | _ + 2, _ => rfl

theorem planTable_some (k : PlanController) : ∀ {n : Nat}, n < 2 →
    k.table n = some (if n = 0 then k.staged else k.active)
  | 0, _ | 1, _ => rfl

theorem licenceTable_none (l : LicenceStore) : ∀ {n : Nat}, 2 ≤ n → l.table n = none
  | _ + 2, _ => rfl

theorem licenceTable_some (l : LicenceStore) : ∀ {n : Nat}, n < 2 →
    l.table n = some (if n = 0 then l.stored else l.working)
  | 0, _ | 1, _ => rfl

theorem licenceSlotOf_none {n : Nat} (h : 16 ≤ n) : licenceSlotOf n = none := dif_neg (by omega)

theorem licenceSlotOf_val (i : Fin 16) : licenceSlotOf i.val = some i := dif_pos i.isLt

theorem inFlight_iff {x : StoreState} : x.inFlight = true ↔ x = .programming ∨ x = .erasing := by
  cases x <;> simp [StoreState.inFlight]

theorem readEntry_returns {p : Port} {tag : Option Byte} {table n : Nat} {s s' : State}
    (h : Asked .plan p tag (.readEntry table n) s s') :
    (2 ≤ table → exec (.readEntry p) s = .next (s'.answer p tag (.plain .range .table)))
    ∧ (table < 2 → 8 ≤ n → exec (.readEntry p) s = .next (s'.answer p tag (.plain .range .channel)))
    ∧ (∀ c : Chan, table < 2 → n = c.val →
      exec (.readEntry p) s = .next (s'.answer p tag (.done
        (natBytes 1 table ++ natBytes 1 n ++ natBytes 2 s.plan.number.toNat ++ natBytes 2 s.plan.revision.toNat
          ++ encodeEntry ((if table = 0 then s.plan.staged else s.plan.active).get c))))) := by
  obtain ⟨l, rfl⟩ := asked_from h
  refine ⟨fun ht => exec_readEntry h ?_, fun ht hn => exec_readEntry h ?_, fun c ht hn => exec_readEntry h ?_⟩
  · rw [readEntryReply, planTable_none _ ht]
    rfl
  · rw [readEntryReply, planTable_some _ ht, chanOf_none.2 hn]
    rfl
  · rw [readEntryReply, planTable_some _ ht, chanOf_eq_some.2 hn]

theorem readLicence_returns {p : Port} {tag : Option Byte} {table n : Nat} {s s' : State}
    (h : Asked .licence p tag (.readLicence table n) s s') :
    (2 ≤ table → exec (.readLicence p) s = .next (s'.answer p tag (.plain .range .table)))
    ∧ (table < 2 → 16 ≤ n → exec (.readLicence p) s = .next (s'.answer p tag (.plain .range .slot)))
    ∧ (table < 2 → n < 16 → s.licence.storeState = .programming ∨ s.licence.storeState = .erasing →
      exec (.readLicence p) s = .next (s'.answer p tag (.plain .busy .storeInFlight)))
    ∧ (∀ i : Fin 16, table < 2 → n = i.val →
      s.licence.storeState ≠ .programming → s.licence.storeState ≠ .erasing →
      exec (.readLicence p) s = .next (s'.answer p tag (.done
        (natBytes 1 table ++ natBytes 1 n ++ [s.licence.storeState.code]
          ++ encodeLicence ((if table = 0 then s.licence.stored else s.licence.working).get i))))) := by
  obtain ⟨l, rfl⟩ := asked_from h
  refine ⟨fun ht => exec_readLicence h ?_, fun ht hn => exec_readLicence h ?_, fun ht hn hb => exec_readLicence h ?_,
    fun i ht hn hp he => exec_readLicence h ?_⟩
  · rw [readLicenceReply, licenceTable_none _ ht]
    rfl
  · rw [readLicenceReply, licenceTable_some _ ht, licenceSlotOf_none hn]
    rfl
  · rw [readLicenceReply, licenceTable_some _ ht, show licenceSlotOf n = some ⟨n, hn⟩ from licenceSlotOf_val ⟨n, hn⟩]
    exact if_pos (inFlight_iff.2 hb)
  · rw [readLicenceReply, licenceTable_some _ ht, hn, licenceSlotOf_val]
    exact if_neg fun hx => (inFlight_iff.1 hx).elim hp he

/-! ## Numbers and levels in bytes (R184) -/

theorem natBytes_one (n : Nat) : natBytes 1 n = [BitVec.ofNat 8 n] := by simp [natBytes]

theorem natBytes_two (n : Nat) : natBytes 2 n = word2 n := by simp [natBytes, word2, Nat.shiftRight_eq_div_pow]

theorem natBytes_three (n : Nat) : natBytes 3 n = word3 n := by simp [natBytes, word3, Nat.shiftRight_eq_div_pow]

theorem levelBytes_eq (l : Int) : levelBytes l = level2 l := by
  rw [levelBytes, natBytes_two, level2, BitVec.toNat_ofInt]
  rfl

theorem beNat_byte {n : Nat} (h : n < 256) : beNat [BitVec.ofNat 8 n] = n := by
  simp only [beNat_one, BitVec.toNat_ofNat]
  omega

theorem beNat_word2 {n : Nat} (h : n < 65536) : beNat (word2 n) = n := by
  simp only [word2, beNat_two, BitVec.toNat_ofNat]
  omega

theorem beNat_word3 {n : Nat} (h : n < 16777216) : beNat (word3 n) = n := by
  simp only [word3, beNat, List.foldl_cons, List.foldl_nil, BitVec.toNat_ofNat]
  omega

/-- The level two bytes carry is the level sent (R184). -/
theorem levelOfNat_level2 {l : Int} (h : IsLevel l) : levelOfNat (beNat (level2 l)) = l := by
  have hlt : (l % 65536).toNat < 65536 := by omega
  rw [level2, beNat_word2 hlt, levelOfNat, BitVec.toInt_ofNat']
  simp only [Int.bmod]
  obtain ⟨hlow, hhigh⟩ := h
  omega

/-! ## The plan entry record of 20 bytes (R184) -/

theorem service_byte (x : Service) : x.code = if x = .inService then 1 else 0 := by cases x <;> rfl

theorem gainMode_byte (x : GainMode) : x.code = if x = .ramp then 1 else 0 := by cases x <;> rfl

theorem source_byte (x : Option Chan) :
    natBytes 1 ((x.map Fin.val).getD 0) = [match x with | some d => BitVec.ofNat 8 d.val | none => 0] := by
  rw [natBytes_one]
  cases x <;> rfl

theorem flagByte_three (a b c : Bool) : flagByte [a, b, c] = flag a 1 + flag b 2 + flag c 4 := by
  revert a b c
  decide

theorem encodeEntry_eq (e : PlanEntry) : encodeEntry e =
    [if e.service = .inService then 1 else 0] ++ word3 e.rxFreq ++ word3 e.txFreq ++ word2 e.gainTarget
      ++ [if e.gainMode = .ramp then 1 else 0,
        BitVec.ofNat 8 (flag e.rampRate.isSome 1 + flag e.squelchSource.isSome 2 + flag e.reflLimit.isSome 4),
        BitVec.ofNat 8 (e.rampRate.getD 0)]
      ++ level2 e.squelchOpen ++ level2 e.squelchClose ++ [BitVec.ofNat 8 e.squelchHoldoff]
      ++ [match e.squelchSource with | some d => BitVec.ofNat 8 d.val | none => 0]
      ++ level2 (e.reflLimit.getD 0) := by
  unfold encodeEntry
  rw [service_byte, gainMode_byte, source_byte, flagByte_three]
  simp only [natBytes_one, natBytes_two, natBytes_three, levelBytes_eq, List.append_assoc,
    List.cons_append, List.nil_append]

/-- The fields of the record, byte by byte. -/
theorem encodeEntry_fields (e : PlanEntry) :
    (encodeEntry e).length = 20
    ∧ (encodeEntry e).take 1 = [e.service.code]
    ∧ ((encodeEntry e).drop 1).take 3 = word3 e.rxFreq
    ∧ ((encodeEntry e).drop 4).take 3 = word3 e.txFreq
    ∧ ((encodeEntry e).drop 7).take 2 = word2 e.gainTarget
    ∧ ((encodeEntry e).drop 9).take 1 = [e.gainMode.code]
    ∧ ((encodeEntry e).drop 10).take 1
      = [BitVec.ofNat 8 (flagByte [e.rampRate.isSome, e.squelchSource.isSome, e.reflLimit.isSome])]
    ∧ ((encodeEntry e).drop 11).take 1 = [BitVec.ofNat 8 (e.rampRate.getD 0)]
    ∧ ((encodeEntry e).drop 12).take 2 = level2 e.squelchOpen
    ∧ ((encodeEntry e).drop 14).take 2 = level2 e.squelchClose
    ∧ ((encodeEntry e).drop 16).take 1 = [BitVec.ofNat 8 e.squelchHoldoff]
    ∧ ((encodeEntry e).drop 17).take 1 = [BitVec.ofNat 8 ((e.squelchSource.map Fin.val).getD 0)]
    ∧ ((encodeEntry e).drop 18).take 2 = level2 (e.reflLimit.getD 0) := by
  simp only [encodeEntry, natBytes_one, natBytes_two, natBytes_three, levelBytes_eq]
  exact ⟨rfl, rfl, rfl, rfl, rfl, rfl, rfl, rfl, rfl, rfl, rfl, rfl, rfl⟩

/-- The bits of a presence byte are the flags it was formed of. -/
theorem testBit_flagByte (a b c : Bool) :
    (beNat [BitVec.ofNat 8 (flagByte [a, b, c])]).testBit 0 = a
    ∧ (beNat [BitVec.ofNat 8 (flagByte [a, b, c])]).testBit 1 = b
    ∧ (beNat [BitVec.ofNat 8 (flagByte [a, b, c])]).testBit 2 = c := by
  revert a b c
  decide

theorem service_code_raw (e : PlanEntry) : beNat [e.service.code] = e.raw.service := by
  unfold PlanEntry.raw
  cases e.service <;> rfl

theorem gainMode_code_raw (e : PlanEntry) : beNat [e.gainMode.code] = e.raw.gainMode := by
  unfold PlanEntry.raw
  cases e.gainMode <;> rfl

/-- An optional field read by its presence bit. -/
theorem option_of_isSome {α : Type} (x : Option α) {y : α} (h : ∀ z, x = some z → y = z) :
    (if x.isSome = true then some y else none) = x := by
  cases x with
  | none => rfl
  | some z => simp [h z rfl]

/-- A record of an entry in the form of R1 parses to the entry's fields. -/
theorem parseEntry_encodeEntry {e : PlanEntry} (h : e.Fits) : parseEntry (encodeEntry e) = e.raw := by
  obtain ⟨-, hservice, hrx, htx, hgain, hmode, hflags, hrate, hopen, hclose, hholdoff, hsource, hrefl⟩ :=
    encodeEntry_fields e
  obtain ⟨hbit0, hbit1, hbit2⟩ := testBit_flagByte e.rampRate.isSome e.squelchSource.isSome e.reflLimit.isSome
  have hfreq := h.rx
  have hfreq' := h.tx
  have hgainRange := h.gain
  have hholdoffRange := h.holdoff
  simp only [parseEntry, fieldAt, bitAt, List.drop_zero, hservice, hrx, htx, hgain, hmode, hflags, hrate, hopen, hclose,
    hholdoff, hsource, hrefl, hbit0, hbit1, hbit2, service_code_raw, gainMode_code_raw, levelOfNat_level2 h.openLevel,
    levelOfNat_level2 h.closeLevel]
  rw [beNat_word3 (by omega), beNat_word3 (by omega), beNat_word2 (by omega),
    beNat_byte (n := e.squelchHoldoff) (by omega)]
  have hrateOf : (if e.rampRate.isSome = true then some (beNat [BitVec.ofNat 8 (e.rampRate.getD 0)]) else none)
      = e.rampRate := option_of_isSome _ fun k hk => by
    have := h.rateRange k hk
    rw [hk, Option.getD_some, beNat_byte (by omega)]
  have hsourceOf : (if e.squelchSource.isSome = true
      then some (beNat [BitVec.ofNat 8 ((e.squelchSource.map Fin.val).getD 0)]) else none)
      = e.squelchSource.map Fin.val := by
    rw [← Option.isSome_map (f := Fin.val)]
    refine option_of_isSome _ fun k hk => ?_
    obtain ⟨d, -, rfl⟩ := Option.map_eq_some_iff.1 hk
    rw [hk, Option.getD_some, beNat_byte (by omega)]
  have hreflOf : (if e.reflLimit.isSome = true then some (levelOfNat (beNat (level2 (e.reflLimit.getD 0)))) else none)
      = e.reflLimit := option_of_isSome _ fun l hl => by
    rw [hl, Option.getD_some, levelOfNat_level2 (h.reflLevel l hl)]
  rw [hrateOf, hsourceOf, hreflOf]
  rfl

/-- The first byte of a payload is its first field. -/
theorem fieldAt_first (n : Byte) (bytes : List Byte) : fieldAt (n :: bytes) 0 1 = n.toNat := by
  simp [fieldAt, beNat]

/-- STAGE ENTRY carrying the record of an entry parses to a request to stage it (R178). -/
theorem parseRequest_encodeEntry {e : PlanEntry} (h : e.Fits) (n : Byte) :
    parseRequest 0x20 (n :: encodeEntry e) = .request .plan (.stageEntry n.toNat e.raw) := by
  have hlen : (n :: encodeEntry e).length = 21 := by rw [List.length_cons, (encodeEntry_fields e).1]
  have hparse : parseEntry ((n :: encodeEntry e).drop 1) = e.raw := parseEntry_encodeEntry h
  calc parseRequest 0x20 (n :: encodeEntry e)
      = sized (n :: encodeEntry e) 21 (.request .plan
          (.stageEntry (fieldAt (n :: encodeEntry e) 0 1) (parseEntry ((n :: encodeEntry e).drop 1)))) := rfl
    _ = .request .plan (.stageEntry n.toNat e.raw) := by rw [sized, if_pos hlen, fieldAt_first, hparse]

/-! ## The licence entry record of 15 bytes (R184) -/

theorem encodeLicence_eq (x : LicenceEntry) : encodeLicence (some x) =
    [BitVec.ofNat 8 (1 + flag x.input.isSome 2 + flag x.input.isSome 4)] ++ word3 x.txLow ++ word3 x.txHigh
      ++ word2 x.gainCeiling
      ++ (match x.input with | some w => word3 w.low ++ word3 w.high | none => [0, 0, 0, 0, 0, 0]) := by
  simp only [encodeLicence, flagByte_three, natBytes_two, natBytes_three, List.append_assoc]
  cases x.input <;> rfl

/-- The fields of the record, byte by byte. -/
theorem encodeLicence_fields (x : LicenceEntry) :
    (encodeLicence (some x)).length = 15
    ∧ (encodeLicence (some x)).take 1 = [BitVec.ofNat 8 (flagByte [true, x.input.isSome, x.input.isSome])]
    ∧ ((encodeLicence (some x)).drop 1).take 3 = word3 x.txLow
    ∧ ((encodeLicence (some x)).drop 4).take 3 = word3 x.txHigh
    ∧ ((encodeLicence (some x)).drop 7).take 2 = word2 x.gainCeiling
    ∧ ((encodeLicence (some x)).drop 9).take 3 = word3 ((x.input.map InputWindow.low).getD 0)
    ∧ ((encodeLicence (some x)).drop 12).take 3 = word3 ((x.input.map InputWindow.high).getD 0) := by
  simp only [encodeLicence, natBytes_two, natBytes_three]
  exact ⟨rfl, rfl, rfl, rfl, rfl, rfl, rfl⟩

theorem windowFits_iff {low high : Nat} : windowFits low high = true ↔
    (30000 ≤ low ∧ low ≤ 1000000) ∧ (30000 ≤ high ∧ high ≤ 1000000) ∧ low ≤ high := by
  simp [windowFits, inRange, and_assoc]

theorem licenceEntryFits_iff {x : LicenceEntry} : licenceEntryFits x = true ↔
    windowFits x.txLow x.txHigh = true ∧ x.gainCeiling ≤ 600
      ∧ ∀ w, x.input = some w → windowFits w.low w.high = true := by
  simp [licenceEntryFits, inRange, and_assoc, Option.all_eq_true]

/-- A frequency of the input window read by its presence bit. -/
theorem window_field {x : LicenceEntry} {f : InputWindow → Nat} (h : ∀ w, x.input = some w → f w ≤ 1000000) :
    (if x.input.isSome = true then some (beNat (word3 ((x.input.map f).getD 0))) else none) = x.input.map f := by
  cases hi : x.input with
  | none => rfl
  | some w =>
    have := h w hi
    simp [beNat_word3 (n := f w) (by omega)]

/-- A record of a licence entry in the form of R21 parses to the entry's fields. -/
theorem parseLicence_encodeLicence {x : LicenceEntry} (h : licenceEntryFits x = true) :
    parseLicence (encodeLicence (some x)) = some (rawLicence x) := by
  obtain ⟨-, hflags, hlow, hhigh, hceiling, hrxLow, hrxHigh⟩ := encodeLicence_fields x
  obtain ⟨hbit0, hbit1, hbit2⟩ := testBit_flagByte true x.input.isSome x.input.isSome
  obtain ⟨htx, hgain, hinput⟩ := licenceEntryFits_iff.1 h
  obtain ⟨htxLow, htxHigh, -⟩ := windowFits_iff.1 htx
  have hlowOf := window_field (f := InputWindow.low) fun w hw => (windowFits_iff.1 (hinput w hw)).1.2
  have hhighOf := window_field (f := InputWindow.high) fun w hw => (windowFits_iff.1 (hinput w hw)).2.1.2
  simp only [parseLicence, fieldAt, bitAt, List.drop_zero, hflags, hlow, hhigh, hceiling, hrxLow, hrxHigh, hbit0, hbit1,
    hbit2, if_true, hlowOf, hhighOf]
  rw [beNat_word3 (by omega), beNat_word3 (by omega), beNat_word2 (by omega)]
  rfl

/-- LICENCE ENTRY carrying the record of an entry parses to a request to write it (R178). -/
theorem parseRequest_encodeLicence {x : LicenceEntry} (h : licenceEntryFits x = true) (n : Byte) :
    parseRequest 0x60 (n :: encodeLicence (some x))
      = .request .licence (.licenceEntry n.toNat (some (rawLicence x))) := by
  have hlen : (n :: encodeLicence (some x)).length = 16 := by rw [List.length_cons, (encodeLicence_fields x).1]
  have hparse : parseLicence ((n :: encodeLicence (some x)).drop 1) = some (rawLicence x) :=
    parseLicence_encodeLicence h
  calc parseRequest 0x60 (n :: encodeLicence (some x))
      = sized (n :: encodeLicence (some x)) 16 (.request .licence (.licenceEntry
          (fieldAt (n :: encodeLicence (some x)) 0 1) (parseLicence ((n :: encodeLicence (some x)).drop 1)))) := rfl
    _ = .request .licence (.licenceEntry n.toNat (some (rawLicence x))) := by
      rw [sized, if_pos hlen, fieldAt_first, hparse]

/-- Settles O33: the records field by field, and each field read back from its bytes. -/
theorem readEntryAndReadLicenceReturnNamedPlace : Obligations.ReadEntryAndReadLicenceReturnNamedPlace :=
  ⟨fun _ _ _ _ _ _ => readEntry_returns, fun _ _ _ _ _ _ => readLicence_returns,
    fun e => ⟨encodeEntry_eq e, parseRequest_encodeEntry⟩, rfl,
    fun x => ⟨encodeLicence_eq x, parseRequest_encodeLicence⟩⟩

end Sys2Proof.Proofs.ChannelPlan

/-! # Site notices and fault shutdown at a sequencer -/

namespace Sys2Proof.Proofs.ChannelPlan

open Sys2Proof Sys2Proof.Machine

/-! ## The order in which a sequencer takes notices and entry changes (R5, R90) -/

theorem isSiteNotice_iff {c : Chan} (x : Message) :
    x.isSiteNotice c = true ↔ x = .siteStart c ∨ x = .siteStop c := by
  cases x <;> simp [Message.isSiteNotice]

theorem isEntryChange_iff {c : Chan} (x : Message) : x.isEntryChange c = true ↔ ∃ e, x = .entryChange c e := by
  cases x <;> simp [Message.isEntryChange]

theorem beforeSiteStart_iff {c : Chan} (x : Message) :
    x.beforeSiteStart c = true ↔ x = .siteStart c ∨ x = .siteStop c ∨ ∃ e, x = .entryChange c e := by
  rw [Message.beforeSiteStart, Bool.or_eq_true, isSiteNotice_iff, isEntryChange_iff, or_assoc]

theorem isFaultShutdown_iff {c : Chan} (x : Message) : x.isFaultShutdown c = true ↔ x = .faultShutdown c := by
  cases x <;> simp [Message.isFaultShutdown]

/-! ## Site start, site stop and fault shutdown by state (R87, R89, R90) -/

/-- A lawful record in OFF holds the values that entering TUNING gives it (R68). -/
theorem cleared_of_off {r : Channel} (h : r.Lawful) (hs : r.state = .off) : r.cleared = r := by
  obtain ⟨-, htune, hblanking, hrx, htx⟩ := h.outsideTuning (by simp [hs])
  obtain ⟨hsettle, hfresh⟩ := h.outsideSettling (by simp [hs])
  have hgain := h.noGain (Or.inl hs)
  have hfold : r.fold = 0 := by simpa [hs] using h.foldIff
  have hrecover := h.outsideFoldback (by simp [hs])
  have hbelow := h.offAir (by simp [hs, ChannelState.carrier])
  have hmean : r.settlingMean = none := by simpa [hfresh] using h.meanIffFresh
  cases r
  simp_all [Channel.cleared]

section Notices

variable {c : Chan} {s s' : State}

theorem exec_siteStart (h : s.take (Message.beforeSiteStart c) = some (.siteStart c, s')) :
    exec (.siteStart c) s = .next (s'.commit c ((s'.channels.get c).siteStart s'.plan.raster)) := by
  simp only [exec, execSiteStart, h]

theorem exec_siteStop (h : s.take (Message.isSiteNotice c) = some (.siteStop c, s')) :
    exec (.siteStop c) s = .next (s'.commit c (s'.channels.get c).siteStop) := by
  simp only [exec, execSiteStop, h]

theorem exec_faultShutdown (h : s.take (Message.isFaultShutdown c) = some (.faultShutdown c, s')) :
    exec (.faultShutdown c) s = .next (s'.commit c (s'.channels.get c).faultShutdown) := by
  simp only [exec, execFaultShutdown, h]

/-- The state in which a message was taken is the one with it taken, but for what is under way. -/
theorem take_from {key : Message → Bool} {m : Message} (h : s.take key = some (m, s')) :
    ∃ l, s = { s' with transit := l } := by
  obtain ⟨ms, -, rfl⟩ := take_some h
  exact ⟨s.transit, rfl⟩

theorem siteStart_acts {r : Channel} (hl : (s'.channels.get c).Lawful) (hr : r = s'.channels.get c) :
    (r.state = .off → r.entry.service = .inService →
      s'.commit c ((s'.channels.get c).siteStart s'.plan.raster) = s'.afterEvent c
        { r with
          state := .tuning, subPhase := some .writing
          demandedRx := r.entry.rxFreq / s'.plan.raster, demandedTx := r.entry.txFreq / s'.plan.raster }
        (tuneDemands c (r.entry.rxFreq / s'.plan.raster) (r.entry.txFreq / s'.plan.raster)) [])
    ∧ (r.state ≠ .off ∨ r.entry.service = .outOfService →
      s'.commit c ((s'.channels.get c).siteStart s'.plan.raster) = s') := by
  subst hr
  unfold Channel.siteStart
  constructor
  · intro hs hi
    rw [if_pos ⟨hs, hi⟩, commit_eq hl rfl, Channel.enterTuning, cleared_of_off hl hs]
    rfl
  · intro hn
    rw [if_neg, commit_same hl]
    rintro ⟨hs, hi⟩
    rcases hn with hn | hn
    · exact hn hs
    · simp [hi] at hn

theorem siteStop_acts {r : Channel} (hl : (s'.channels.get c).Lawful) (hr : r = s'.channels.get c) :
    (r.state = .off → s'.commit c (s'.channels.get c).siteStop = s')
    ∧ (r.state ≠ .off → s'.commit c (s'.channels.get c).siteStop = s'.afterEvent c
        { r.cleared with state := .off, subPhase := none, demandedRx := 0, demandedTx := 0 }
        (tuneDemands c 0 0) [.offNotice c]) := by
  subst hr
  unfold Channel.siteStop
  constructor
  · intro hs
    rw [if_pos hs, commit_same hl]
  · intro hs
    rw [if_neg hs, commit_eq hl rfl]
    rfl

theorem faultShutdown_of_on {r : Channel} (h : r.state ≠ .off) (h' : r.state ≠ .shutdown) :
    r.faultShutdown = r.enterShutdown.reporting .faultShutdown := by
  unfold Channel.faultShutdown
  split
  · exact absurd ‹_› h
  · exact absurd ‹_› h'
  all_goals rfl

theorem faultShutdown_acts {r : Channel} (hl : (s'.channels.get c).Lawful) (hr : r = s'.channels.get c) :
    (r.state = .off → s'.commit c (s'.channels.get c).faultShutdown = s')
    ∧ (r.state = .shutdown → s'.commit c (s'.channels.get c).faultShutdown
        = s'.afterEvent c r [] [.occurrence (ChannelKind.faultShutdown.slot c)])
    ∧ (r.state ≠ .off → r.state ≠ .shutdown → s'.commit c (s'.channels.get c).faultShutdown
        = s'.afterEvent c { r.cleared with state := .shutdown, subPhase := none }
          [] [.occurrence (ChannelKind.faultShutdown.slot c)]) := by
  subst hr
  refine ⟨fun hs => ?_, fun hs => ?_, fun hs hs' => ?_⟩
  · rw [Channel.faultShutdown, hs]
    exact commit_same hl
  · rw [Channel.faultShutdown, hs]
    exact commit_eq hl rfl
  · rw [faultShutdown_of_on hs hs']
    exact commit_eq hl rfl

end Notices

/-- Settles O39: an event at a lawful record ends as commit_eq says; an event that changes nothing leaves the state. -/
theorem siteNoticesAndFaultShutdownActByState : Obligations.SiteNoticesAndFaultShutdownActByState := by
  refine ⟨fun c m s s' => ⟨take_iff isSiteNotice_iff, take_iff isEntryChange_iff, take_iff beforeSiteStart_iff,
    take_iff isFaultShutdown_iff⟩, fun c s s' r hs hr => ⟨fun h => ?_, fun h => ?_, fun h => ?_⟩⟩
  · rw [exec_siteStart h]
    obtain ⟨l, rfl⟩ := take_from h
    obtain ⟨hstart, hstays⟩ := siteStart_acts (s' := s') (hs.records c) hr
    exact ⟨fun ho hi => congrArg Host.Outcome.next (hstart ho hi), fun hn => congrArg Host.Outcome.next (hstays hn)⟩
  · rw [exec_siteStop h]
    obtain ⟨l, rfl⟩ := take_from h
    obtain ⟨hstays, hstop⟩ := siteStop_acts (s' := s') (hs.records c) hr
    exact ⟨fun ho => congrArg Host.Outcome.next (hstays ho), fun ho => congrArg Host.Outcome.next (hstop ho)⟩
  · rw [exec_faultShutdown h]
    obtain ⟨l, rfl⟩ := take_from h
    obtain ⟨hstays, hagain, hshut⟩ := faultShutdown_acts (s' := s') (hs.records c) hr
    exact ⟨fun ho => congrArg Host.Outcome.next (hstays ho), fun ho => congrArg Host.Outcome.next (hagain ho),
      fun ho hn => congrArg Host.Outcome.next (hshut ho hn)⟩

end Sys2Proof.Proofs.ChannelPlan

/-! # The reset values and the laws they keep -/

namespace Sys2Proof.Proofs.ChannelPlan

open Sys2Proof Sys2Proof.Machine

/-! ## The reset values (R2, R19, R32, R38, R46, R96, R107, R125, R135, R142, R156, R169, R183) -/

theorem resetValues_channel (phase : Phase) (s : State) (c : Chan) :
    (s.resetValues phase).channels.get c = Channel.atReset (s.channels.get c).lockRx (s.channels.get c).lockTx :=
  ofFn_get _ _

theorem resetValues_line (phase : Phase) (s : State) (n : Line) :
    (s.resetValues phase).lines.get n = FaultLine.atReset (s.lines.get n).pinHigh :=
  ofFn_get _ _

/-- In STANDBY no gate is open (R73, R135). -/
theorem gate_of_standby {s : State} (h : s.mode.mode = .standby) (c : Chan) : s.gate c = false := by
  simp [State.gate, State.operateLevel, h]

theorem levelAtReset_meter (c : Chan) (q : Quantity) : LevelMonitor.atReset.meter c q = Meter.empty := by
  unfold LevelMonitor.meter LevelMonitor.atReset
  rw [replicate_get]
  cases q <;> rfl

theorem conditionsAtReset_slot (i : SlotNo) : ConditionTable.atReset.slots.get i = Slot.clear := replicate_get _ _

theorem conditionsAtReset_attention (p : Port) : ConditionTable.atReset.attention p = Attention.atReset := by
  cases p <;> rfl

/-- A hardware reset and a loss of supply both put every block at its reset values. -/
theorem exec_resetValues {s : State} {i : Instr} {phase : Phase}
    (h : i = .hardwareReset ∧ phase = .inReset ∨ i = .lossOfSupply ∧ phase = .unpowered) :
    exec i s = .next (s.resetValues phase) := by
  rcases h with ⟨rfl, rfl⟩ | ⟨rfl, rfl⟩ <;> rfl

theorem exec_endOfHardwareReset {s : State} {pins : PinSample} (h : s.phase = .inReset) :
    exec (.endOfHardwareReset pins) s = .next (s.endReset pins) :=
  congrArg Host.Outcome.next (if_pos h)

theorem startHead_of_idle {l : Link} {w : WriteRecord} {rest : List WriteRecord} (hi : l.inFlight = none)
    (hq : l.queue = w :: rest) : l.startHead = ⟨rest, some w⟩ := by
  unfold Link.startHead
  rw [hi, hq]

/-- Settles O60: the reset values field by field, then the end of the reset. -/
theorem resetValuesAndEndOfReset : Obligations.ResetValuesAndEndOfReset := by
  refine ⟨fun s i phase h => ⟨s.resetValues phase, exec_resetValues h, ?_⟩, rfl,
    fun s pins h => ⟨s.endReset pins, exec_endOfHardwareReset h, rfl, fun c => ofFn_get _ _, fun n => ofFn_get _ _,
      fun w rest hi hq => startHead_of_idle hi hq⟩⟩
  exact ⟨rfl, rfl, rfl, fun c => ⟨default_get c, default_get c⟩, rfl, rfl, rfl, rfl, rfl, rfl, rfl, rfl,
    fun n => replicate_get _ _, rfl, rfl, rfl, resetValues_channel phase s, rfl, levelAtReset_meter, rfl, rfl, rfl, rfl,
    rfl, rfl, rfl, rfl, rfl, resetValues_line phase s, conditionsAtReset_slot, conditionsAtReset_attention, rfl,
    gate_of_standby rfl⟩

/-! ## The laws after reset -/

theorem atReset_lawful (rx tx : Bool) : (Channel.atReset rx tx).Lawful := by
  constructor <;> simp [Channel.atReset, ChannelState.carrier]

theorem atReset_inRange (rx tx : Bool) : (Channel.atReset rx tx).InRange := by
  constructor <;> simp [Channel.atReset]

theorem authorityAtReset_get (p : Port) : AuthorityUnit.atReset.get p = ⟨.idle, 0⟩ := by cases p <;> rfl

theorem authorityAtReset_lawful : AuthorityUnit.atReset.Lawful where
  oneHolder _ _ h := by simp [authorityAtReset_get] at h
  oneReserve _ _ h := by simp [authorityAtReset_get] at h
  reserveBesideHolder _ h := by simp [authorityAtReset_get] at h
  neverS := by decide
  belowLimit _ h := by simp [authorityAtReset_get] at h
  idleZero _ _ := by simp [authorityAtReset_get]
  limitRange := by decide

theorem paramsDefault_lawful : SequencerParams.default.Lawful := by constructor <;> decide

theorem timebaseAtReset_lawful : Timebase.atReset.Lawful := by constructor <;> decide

theorem accumulatorEmpty_lawful {window : Nat} (h : 0 < window) : Accumulator.empty.Lawful window := by
  constructor <;> simp [Accumulator.empty, h]

theorem levelAtReset_lawful : LevelMonitor.atReset.Lawful where
  reports := by decide
  window := by decide
  threshold := by decide
  meters c q := by
    rw [levelAtReset_meter]
    exact accumulatorEmpty_lawful (by decide)

theorem slotClear_lawful (i : SlotNo) : Slot.clear.Lawful i := by
  constructor <;> simp [Slot.clear]

theorem conditionsAtReset_lawful : ConditionTable.atReset.Lawful where
  slots i := (conditionsAtReset_slot i).symm ▸ slotClear_lawful i
  lines p := by simp [conditionsAtReset_attention, Attention.atReset]

theorem reset_channel (c : Chan) : State.reset.channels.get c = Channel.atReset false false := replicate_get _ _

theorem reset_workingFollowsActive : State.reset.WorkingFollowsActive := fun c => by
  rw [reset_channel]
  exact (default_get c).symm

theorem reset_entriesFit : State.reset.EntriesFit where
  staged := default_get_holds
  active := default_get_holds
  working c := (reset_channel c).symm ▸ default_holds c
  sent _ _ h := nomatch h
  asked _ _ _ _ _ h := nomatch h

theorem reset_operateLawful : State.reset.OperateLawful where
  operate h := nomatch h
  loading _ _ _ _ _ h := nomatch h
  ticks _ _ _ h := nomatch h
  stopped h := absurd rfl h

theorem reset_admissionLawful : State.reset.AdmissionLawful where
  operate h := nomatch h
  pending _ h := nomatch h
  loading _ := rfl
  armed _ h := nomatch h

/-- Settles O3: the law of each block at its reset values. -/
theorem resetStateIsLawful : Obligations.ResetStateIsLawful where
  authority := authorityAtReset_lawful
  sequencers := ⟨paramsDefault_lawful, fun c => (reset_channel c).symm ▸ atReset_lawful false false⟩
  ranges c := (reset_channel c).symm ▸ atReset_inRange false false
  entries := reset_entriesFit
  working := reset_workingFollowsActive
  pending _ h := nomatch h
  link := by unfold Link.Lawful; decide
  timebase := timebaseAtReset_lawful
  level := levelAtReset_lawful
  conditions := conditionsAtReset_lawful
  operate := reset_operateLawful
  admission := reset_admissionLawful

end Sys2Proof.Proofs.ChannelPlan

/-! # Licence admission -/

namespace Sys2Proof.Proofs.Licence

open Sys2Proof Sys2Proof.Machine Sys2Proof.Proofs.ChannelPlan

/-! ## The conditions on one licence entry (R35) -/

theorem licenceCovers_iff {x : LicenceEntry} {e : PlanEntry} : licenceCovers x e = true ↔
    x.txLow ≤ e.txFreq ∧ e.txFreq ≤ x.txHigh ∧ ∀ w, x.input = some w → w.low ≤ e.rxFreq ∧ e.rxFreq ≤ w.high := by
  unfold licenceCovers
  cases x.input <;> simp [withinWindow, and_assoc]

theorem licenceAdmits_iff {x : LicenceEntry} {e : PlanEntry} : licenceAdmits x e = true ↔
    x.txLow ≤ e.txFreq ∧ e.txFreq ≤ x.txHigh ∧ (∀ w, x.input = some w → w.low ≤ e.rxFreq ∧ e.rxFreq ≤ w.high)
      ∧ e.gainTarget ≤ x.gainCeiling := by
  simp only [licenceAdmits, Bool.and_eq_true, licenceCovers_iff, decide_eq_true_eq, and_assoc]

/-! ## The stored table judged (R35) -/

/-- Some slot of a table meets a test, the slots named by their numbers. -/
theorem table_any_iff {t : LicenceTable} {test : LicenceEntry → Bool} :
    (t.toList.any fun slot => slot.any test) = true ↔ ∃ i x, t.get i = some x ∧ test x = true := by
  simp only [List.any_eq_true, Option.any_eq_true, Vector.mem_toList_iff, Vector.mem_iff_getElem, get_eq]
  constructor
  · rintro ⟨slot, ⟨i, hi, hslot⟩, x, rfl, hx⟩
    exact ⟨⟨i, hi⟩, x, hslot, hx⟩
  · rintro ⟨i, x, hslot, hx⟩
    exact ⟨some x, ⟨i.val, i.isLt, hslot⟩, x, rfl, hx⟩

theorem anySlot_iff {l : LicenceStore} {test : LicenceEntry → Bool} : l.anySlot test = true ↔
    l.storeState = .protected_ ∧ ∃ i x, l.stored.get i = some x ∧ test x = true := by
  rw [LicenceStore.anySlot, Bool.and_eq_true, decide_eq_true_eq, table_any_iff]

theorem admits_iff (l : LicenceStore) (e : PlanEntry) : l.admits e = true ↔
    l.storeState = .protected_ ∧ ∃ i x, l.stored.get i = some x
      ∧ x.txLow ≤ e.txFreq ∧ e.txFreq ≤ x.txHigh
      ∧ (∀ w, x.input = some w → w.low ≤ e.rxFreq ∧ e.rxFreq ≤ w.high)
      ∧ e.gainTarget ≤ x.gainCeiling := by
  simp only [LicenceStore.admits, anySlot_iff, licenceAdmits_iff]

/-- The reason is GAIN_CEILING where some slot covers the entry, NO_WINDOW where none does. -/
theorem reason_cases (l : LicenceStore) (e : PlanEntry) :
    l.reason e = .gainCeiling ∧ l.storeState = .protected_ ∧ (∃ i x, l.stored.get i = some x
        ∧ x.txLow ≤ e.txFreq ∧ e.txFreq ≤ x.txHigh
        ∧ ∀ w, x.input = some w → w.low ≤ e.rxFreq ∧ e.rxFreq ≤ w.high)
      ∨ l.reason e = .noWindow ∧ (l.storeState ≠ .protected_ ∨ ∀ i x, l.stored.get i = some x →
        ¬ (x.txLow ≤ e.txFreq ∧ e.txFreq ≤ x.txHigh
          ∧ ∀ w, x.input = some w → w.low ≤ e.rxFreq ∧ e.rxFreq ≤ w.high)) := by
  have hcovers := anySlot_iff (l := l) (test := fun x => licenceCovers x e)
  simp only [licenceCovers_iff] at hcovers
  by_cases h : (l.anySlot fun x => licenceCovers x e) = true
  · exact Or.inl ⟨if_pos h, hcovers.1 h⟩
  · refine Or.inr ⟨if_neg h, ?_⟩
    rw [hcovers, not_and_or] at h
    exact h.imp_right fun hn i x hx hc => hn ⟨i, x, hx, hc⟩

/-! ## The channel validation names (R8, R35) -/

/-- A channel that meets a test while none below it does is the lowest-numbered one. -/
theorem lowestChan_of_first {test : Chan → Bool} {c : Chan} (hc : test c = true) (hbelow : ∀ d < c, test d = false) :
    lowestChan test = some c := by
  cases h : lowestChan test with
  | none => exact absurd hc (Bool.not_eq_true _ ▸ lowestChan_none.1 h c)
  | some d =>
    obtain ⟨hd, hfirst⟩ := lowestChan_some h
    rcases lt_trichotomy d c with hlt | rfl | hlt
    · exact absurd hd (Bool.not_eq_true _ ▸ hbelow d hlt)
    · rfl
    · exact absurd hc (Bool.not_eq_true _ ▸ hfirst c hlt)

theorem failing_of_first {t : PlanTable} {test : Chan → Bool} {c : Chan} (hs : (t.get c).service = .inService)
    (hc : test c = true) (hbelow : ∀ d < c, (t.get d).service = .inService → test d = false) :
    failing t test = some c := by
  refine lowestChan_of_first (by simp [PlanEntry.active, hs, hc]) fun d hd => ?_
  by_cases hin : (t.get d).service = .inService
  · simp [hbelow d hd hin]
  · simp [PlanEntry.active, hin]

theorem firstRefused_none {l : LicenceStore} {t : PlanTable} :
    l.firstRefused t = none ↔ ∀ c, (t.get c).service = .inService → l.admits (t.get c) = true := by
  simp only [LicenceStore.firstRefused, failing_none, Bool.not_eq_false']

theorem firstRefused_of_first {l : LicenceStore} {t : PlanTable} {c : Chan} (hs : (t.get c).service = .inService)
    (hc : l.admits (t.get c) = false)
    (hbelow : ∀ d < c, (t.get d).service = .inService → l.admits (t.get d) = true) :
    l.firstRefused t = some c :=
  failing_of_first hs (by rw [hc, Bool.not_false]) fun d hd hin => by rw [hbelow d hd hin, Bool.not_true]

theorem validate_of_planFault {s : State} {t : PlanTable} {d : Detail} {c : Chan}
    (h : planFault s.plan.raster t = some (d, c)) : s.validate t = some (.refused .plan d (chanNumber c)) := by
  simp only [State.validate, h]

theorem validate_none_iff {s : State} {t : PlanTable} (h : planFault s.plan.raster t = none) :
    s.validate t = none ↔ s.licence.firstRefused t = none := by
  simp only [State.validate, h]
  cases s.licence.firstRefused t <;> simp

theorem validate_of_firstRefused {s : State} {t : PlanTable} {c : Chan} (h : planFault s.plan.raster t = none)
    (hc : s.licence.firstRefused t = some c) :
    s.validate t = some (.refused .licence (s.licence.reason (t.get c)) (chanNumber c)) := by
  simp only [State.validate, h, hc]

/-- Settles O30: the slots of the stored table judged one by one, then the in-service channels in their order. -/
theorem licenceAdmissionJudgesInServiceEntries : Obligations.LicenceAdmissionJudgesInServiceEntries :=
  ⟨admits_iff, reason_cases,
    fun _ _ h => ⟨(validate_none_iff h).trans firstRefused_none,
      fun _ hs hc hbelow => validate_of_firstRefused h (firstRefused_of_first hs hc hbelow)⟩,
    fun _ _ _ _ => validate_of_planFault⟩

end Sys2Proof.Proofs.Licence

/-! # The checks on a licence record -/

namespace Sys2Proof.Proofs.Licence

open Sys2Proof Sys2Proof.Machine Sys2Proof.Proofs.ChannelPlan

/-! ## The checks in order (R25) -/

theorem licensable_eq (freq : Nat) : licensable freq = decide (30000 ≤ freq ∧ freq ≤ 1000000) :=
  (Bool.decide_and ..).symm

/-- An upper end of a window: licensable and not below the lower end. -/
theorem upperEnd_eq (low high : Nat) : (licensable high && decide (low ≤ high))
    = decide (30000 ≤ high ∧ high ≤ 1000000 ∧ low ≤ high) := by
  simp only [licensable_eq, Bool.decide_and, Bool.and_assoc]

/-- The checks 5 to 7 of R25 on the input window, each with the detail it gives where it fails. -/
def windowChecks (rxLow rxHigh : Option Nat) : List (Bool × Detail) :=
  [ (decide (rxLow.isSome ↔ rxHigh.isSome), .rxWindow),
    (rxLow.all fun l => decide (30000 ≤ l ∧ l ≤ 1000000), .rxLow),
    (rxHigh.all fun h => decide (30000 ≤ h ∧ h ≤ 1000000 ∧ ∀ l ∈ rxLow, l ≤ h), .rxHigh)]

/-- The checks 2 to 7 of R25 in order. -/
def licenceChecks (r : RawLicence) : List (Bool × Detail) :=
  (decide (30000 ≤ r.txLow ∧ r.txLow ≤ 1000000), .txLow)
    :: (decide (30000 ≤ r.txHigh ∧ r.txHigh ≤ 1000000 ∧ r.txLow ≤ r.txHigh), .txHigh)
    :: (decide (r.gainCeiling ≤ 600), .ceiling) :: windowChecks r.rxLow r.rxHigh

theorem windowFault_whole (low high : Nat) : windowFault (some low) (some high) =
    if (!licensable low) = true then some .rxLow
    else if (!(licensable high && decide (low ≤ high))) = true then some .rxHigh else none := rfl

/-- An input window half given fails check 5; of a whole one its two ends are judged. -/
theorem windowFault_eq_firstFault : ∀ rxLow rxHigh : Option Nat,
    (if (rxLow.isSome != rxHigh.isSome) = true then some Detail.rxWindow else windowFault rxLow rxHigh)
      = firstFault (windowChecks rxLow rxHigh)
  | none, none | none, some _ | some _, none => rfl
  | some low, some high => by
    have hends : windowFault (some low) (some high)
        = firstFault [(decide (30000 ≤ low ∧ low ≤ 1000000), .rxLow),
          (decide (30000 ≤ high ∧ high ≤ 1000000 ∧ low ≤ high), .rxHigh)] := by
      rw [windowFault_whole, ← firstFault_nil, firstFault_cons, firstFault_cons]
      · rw [licensable_eq, Bool.not_eq_true']
      · rw [upperEnd_eq, Bool.not_eq_true']
    simpa [windowChecks, firstFault] using hends

/-- The licence checks answer the first of the list that fails (R25). -/
theorem licenceFault_eq_firstFault (r : RawLicence) : licenceFault r = firstFault (licenceChecks r) := by
  unfold licenceFault licenceChecks
  rw [windowFault_eq_firstFault, firstFault_cons, firstFault_cons, firstFault_cons]
  · rw [licensable_eq, Bool.not_eq_true']
  · rw [upperEnd_eq, Bool.not_eq_true']
  · rw [decide_eq_false_iff_not, not_le]

/-- What a record that passes all checks of R25 is. -/
structure LicencePasses (r : RawLicence) : Prop where
  txLow : 30000 ≤ r.txLow ∧ r.txLow ≤ 1000000
  txHigh : 30000 ≤ r.txHigh ∧ r.txHigh ≤ 1000000 ∧ r.txLow ≤ r.txHigh
  ceiling : r.gainCeiling ≤ 600
  window : r.rxLow.isSome ↔ r.rxHigh.isSome
  rxLow : ∀ l, r.rxLow = some l → 30000 ≤ l ∧ l ≤ 1000000
  rxHigh : ∀ h, r.rxHigh = some h → 30000 ≤ h ∧ h ≤ 1000000 ∧ ∀ l, r.rxLow = some l → l ≤ h

theorem licenceFault_none {r : RawLicence} (h : licenceFault r = none) : LicencePasses r := by
  simp only [licenceFault_eq_firstFault, firstFault_none, licenceChecks, windowChecks, List.forall_mem_cons,
    decide_eq_true_eq, Option.all_eq_true, Option.mem_def] at h
  obtain ⟨txLow, txHigh, ceiling, window, rxLow, rxHigh, -⟩ := h
  exact ⟨txLow, txHigh, ceiling, window, rxLow, rxHigh⟩

/-! ## The entry stored (R21, R25) -/

/-- A window given whole, or not at all, keeps its two ends. -/
theorem inputWindow_ends : ∀ {rxLow rxHigh : Option Nat}, (rxLow.isSome ↔ rxHigh.isSome) →
    (inputWindow rxLow rxHigh).map InputWindow.low = rxLow ∧ (inputWindow rxLow rxHigh).map InputWindow.high = rxHigh
  | none, none, _ | some _, some _, _ => ⟨rfl, rfl⟩
  | none, some _, h | some _, none, h => by simp at h

theorem inputWindow_eq_some {w : InputWindow} : ∀ {rxLow rxHigh : Option Nat}, inputWindow rxLow rxHigh = some w →
    rxLow = some w.low ∧ rxHigh = some w.high
  | some _, some _, rfl => ⟨rfl, rfl⟩

/-- A record that passes the checks is stored field by field. -/
theorem rawLicence_toEntry {r : RawLicence} (h : LicencePasses r) : rawLicence r.toEntry = r := by
  obtain ⟨hlow, hhigh⟩ := inputWindow_ends h.window
  calc rawLicence r.toEntry
      = { r with
          rxLow := (inputWindow r.rxLow r.rxHigh).map InputWindow.low
          rxHigh := (inputWindow r.rxLow r.rxHigh).map InputWindow.high } := rfl
    _ = r := by rw [hlow, hhigh]

/-- A record that passes the checks is stored in the form of R21. -/
theorem toEntry_licenceEntryFits {r : RawLicence} (h : LicencePasses r) : licenceEntryFits r.toEntry = true := by
  refine licenceEntryFits_iff.2 ⟨windowFits_iff.2 ⟨h.txLow, ⟨h.txHigh.1, h.txHigh.2.1⟩, h.txHigh.2.2⟩, h.ceiling,
    fun w hw => windowFits_iff.2 ?_⟩
  obtain ⟨hlow, hhigh⟩ := inputWindow_eq_some hw
  obtain ⟨hmin, hmax, hordered⟩ := h.rxHigh _ hhigh
  exact ⟨h.rxLow _ hlow, ⟨hmin, hmax⟩, hordered _ hlow⟩

end Sys2Proof.Proofs.Licence

/-! # Licence requests -/

namespace Sys2Proof.Proofs.Licence

open Sys2Proof Sys2Proof.Machine Sys2Proof.Proofs.ChannelPlan

/-! ## Licence requests examined in order (R24) -/

section Licensing

variable {p : Port} {f : State → Reply × State} {s : State}

theorem licensing_of_not (h : ¬ Holds s p) : licensing p f s = (.plain .role .none_, s) := holderOnly_of_not h

theorem licensing_of_operate (h : Holds s p) (hm : s.mode.mode = .operate) :
    licensing p f s = (.plain .mode .none_, s) := by
  rw [licensing, holderOnly_of_holds h, if_pos hm]
  rfl

theorem licensing_of_inFlight (h : Holds s p) (hm : s.mode.mode = .standby)
    (hb : s.licence.storeState = .programming ∨ s.licence.storeState = .erasing) :
    licensing p f s = (.plain .busy .storeInFlight, s) := by
  rw [licensing, holderOnly_of_holds h, if_neg (by simp [hm]), if_pos (inFlight_iff.2 hb)]
  rfl

theorem licensing_of_passes (h : Holds s p) (hm : s.mode.mode = .standby)
    (hp : s.licence.storeState ≠ .programming) (he : s.licence.storeState ≠ .erasing) : licensing p f s = f s := by
  rw [licensing, holderOnly_of_holds h, if_neg (by simp [hm]),
    if_neg fun hb => (inFlight_iff.1 hb).elim hp he]

/-- In PROTECTED and INCOMPLETE step 4 is reached. -/
theorem licensing_of_notBlank (h : Holds s p) (hm : s.mode.mode = .standby)
    (hs : s.licence.storeState = .protected_ ∨ s.licence.storeState = .incomplete) : licensing p f s = f s := by
  rcases hs with hs | hs <;> exact licensing_of_passes h hm (by simp [hs]) (by simp [hs])

theorem licensing_of_blank (h : Holds s p) (hm : s.mode.mode = .standby) (hs : s.licence.storeState = .blank) :
    licensing p f s = f s :=
  licensing_of_passes h hm (by simp [hs]) (by simp [hs])

end Licensing

theorem not_blank {x : StoreState} (h : x = .protected_ ∨ x = .incomplete) : x ≠ .blank := by
  rcases h with rfl | rfl <;> simp

/-- LICENCE ENTRY asked: its reply goes back through the port. -/
theorem exec_licenceEntry {p : Port} {tag : Option Byte} {n : Nat} {x : Option RawLicence} {s s' t : State} {y : Reply}
    (h : Asked .licence p tag (.licenceEntry n x) s s') (hy : licensing p (licenceEntry n x) s' = (y, t)) :
    exec (.licenceEntry p) s = .next (t.answer p tag y) :=
  congrArg Host.Outcome.next (serve_asked h (congrArg some hy))

/-- A request without parameters answered by the pair its meaning gives. -/
theorem serveOnly_answers {o : Owner} {p : Port} {tag : Option Byte} {q : Request} {s s' t : State} {y : Reply}
    {f : State → Reply × State} (h : Asked o p tag q s s') (hy : f s' = (y, t)) :
    serveOnly o p q f s = t.answer p tag y := by
  rw [serveOnly_asked h, hy]

theorem exec_licenceCommit {p : Port} {tag : Option Byte} {s s' t : State} {y : Reply}
    (h : Asked .licence p tag .licenceCommit s s') (hy : licensing p licenceCommit s' = (y, t)) :
    exec (.licenceCommit p) s = .next (t.answer p tag y) :=
  congrArg Host.Outcome.next (serveOnly_answers h hy)

theorem exec_licenceErase {p : Port} {tag : Option Byte} {s s' t : State} {y : Reply}
    (h : Asked .licence p tag .licenceErase s s') (hy : licensing p licenceErase s' = (y, t)) :
    exec (.licenceErase p) s = .next (t.answer p tag y) :=
  congrArg Host.Outcome.next (serveOnly_answers h hy)

/-! ## LICENCE ENTRY (R25) -/

theorem licenceEntry_of_notBlank {n : Nat} {x : Option RawLicence} {s : State} (h : s.licence.storeState ≠ .blank) :
    licenceEntry n x s = (.plain .state .storeNotBlank, s) := by
  rw [licenceEntry, if_pos h]
  rfl

theorem licenceEntry_of_no_slot {n : Nat} {x : Option RawLicence} {s : State} (h : s.licence.storeState = .blank)
    (hn : 16 ≤ n) : licenceEntry n x s = (.plain .range .slot, s) := by
  rw [licenceEntry, if_neg (not_not_intro h), licenceSlotOf_none hn]
  rfl

theorem licenceEntry_of_empty {i : Fin 16} {s : State} (h : s.licence.storeState = .blank) :
    licenceEntry i.val none s = writeWorking i none s := by
  rw [licenceEntry, if_neg (not_not_intro h), licenceSlotOf_val]

theorem licenceEntry_of_fault {i : Fin 16} {r : RawLicence} {d : Detail} {s : State}
    (h : s.licence.storeState = .blank) (hd : licenceFault r = some d) :
    licenceEntry i.val (some r) s = (.refused .range d (BitVec.ofNat 8 i.val), s) := by
  simp only [licenceEntry, if_neg (not_not_intro h), licenceSlotOf_val, hd]

theorem licenceEntry_of_passes {i : Fin 16} {r : RawLicence} {s : State} (h : s.licence.storeState = .blank)
    (hr : licenceFault r = none) : licenceEntry i.val (some r) s = writeWorking i (some r.toEntry) s := by
  simp only [licenceEntry, if_neg (not_not_intro h), licenceSlotOf_val, hr]

/-- Settles O31: the checks as a list of which the first failing one answers, then steps 4 and 5 of R24 by the store
state, the slot and the record. -/
theorem licenceEntryWritesWorkingSlot : Obligations.LicenceEntryWritesWorkingSlot := by
  refine ⟨fun r => ⟨licenceFault_eq_firstFault r, fun hr => rawLicence_toEntry (licenceFault_none hr)⟩,
    fun p tag n x s s' h hh hm => ?_⟩
  obtain ⟨l, rfl⟩ := asked_from h
  refine ⟨fun hs => exec_licenceEntry h ?_, fun hs hn => exec_licenceEntry h ?_, fun i hs hn => ?_⟩
  · rw [licensing_of_notBlank (s := s') hh hm hs, licenceEntry_of_notBlank (s := s') (not_blank hs)]
  · rw [licensing_of_blank (s := s') hh hm hs, licenceEntry_of_no_slot (s := s') hs hn]
  subst hn
  have hpass := licensing_of_blank (f := licenceEntry i.val x) (s := s') hh hm hs
  refine ⟨?_, ?_, ?_⟩
  · rintro rfl
    exact exec_licenceEntry h (hpass.trans (licenceEntry_of_empty (s := s') hs))
  · rintro r d rfl hd
    exact exec_licenceEntry h (hpass.trans (licenceEntry_of_fault (s := s') hs hd))
  · rintro r rfl hr
    exact ⟨exec_licenceEntry h (hpass.trans (licenceEntry_of_passes (s := s') hs hr)),
      toEntry_licenceEntryFits (licenceFault_none hr)⟩

/-! ## LICENCE COMMIT and LICENCE ERASE (R26, R28) -/

theorem eq_emptyLicence_iff {t : LicenceTable} : t = emptyLicence ↔ ∀ i, t.get i = none := by
  constructor
  · rintro rfl i
    exact replicate_get none i
  · exact fun h => ext_get fun i => (h i).trans (replicate_get none i).symm

theorem licenceCommit_of_notBlank {s : State} (h : s.licence.storeState ≠ .blank) :
    licenceCommit s = (.plain .state .storeNotBlank, s) := by
  rw [licenceCommit, if_pos h]
  rfl

theorem licenceCommit_of_empty {s : State} (h : s.licence.storeState = .blank)
    (hw : ∀ i, s.licence.working.get i = none) : licenceCommit s = (.plain .state .workingEmpty, s) := by
  rw [licenceCommit, if_neg (not_not_intro h), if_pos (eq_emptyLicence_iff.2 hw)]
  rfl

theorem licenceCommit_begins {s : State} {i : Fin 16} (h : s.licence.storeState = .blank)
    (hw : s.licence.working.get i ≠ none) :
    licenceCommit s = (.accepted, s.setLicence { s.licence with storeState := .programming }) := by
  rw [licenceCommit, if_neg (not_not_intro h), if_neg fun he => hw (eq_emptyLicence_iff.1 he i)]

theorem licenceCommit_asked {p : Port} {tag : Option Byte} {s s' : State} (hh : Holds s p)
    (hm : s.mode.mode = .standby) (h : Asked .licence p tag .licenceCommit s s') :
    (s.licence.storeState = .protected_ ∨ s.licence.storeState = .incomplete →
      exec (.licenceCommit p) s = .next (s'.answer p tag (.plain .state .storeNotBlank)))
    ∧ (s.licence.storeState = .blank → (∀ i, s.licence.working.get i = none) →
      exec (.licenceCommit p) s = .next (s'.answer p tag (.plain .state .workingEmpty)))
    ∧ (∀ i, s.licence.storeState = .blank → s.licence.working.get i ≠ none →
      exec (.licenceCommit p) s = .next (State.answer p tag .accepted
        { s' with licence := { s.licence with storeState := .programming } })) := by
  obtain ⟨l, rfl⟩ := asked_from h
  refine ⟨fun hs => exec_licenceCommit h ?_, fun hs hw => exec_licenceCommit h ?_,
    fun i hs hw => exec_licenceCommit h ?_⟩
  · rw [licensing_of_notBlank (s := s') hh hm hs, licenceCommit_of_notBlank (s := s') (not_blank hs)]
  · rw [licensing_of_blank (s := s') hh hm hs, licenceCommit_of_empty (s := s') hs hw]
  · rw [licensing_of_blank (s := s') hh hm hs, licenceCommit_begins (s := s') hs hw]
    rfl

theorem licenceErase_asked {p : Port} {tag : Option Byte} {s s' : State} (hh : Holds s p)
    (hm : s.mode.mode = .standby) (h : Asked .licence p tag .licenceErase s s')
    (hp : s.licence.storeState ≠ .programming) (he : s.licence.storeState ≠ .erasing) :
    exec (.licenceErase p) s = .next (State.answer p tag .accepted
      { s' with licence := { s.licence with storeState := .erasing } }) := by
  obtain ⟨l, rfl⟩ := asked_from h
  exact exec_licenceErase h (licensing_of_passes (s := s') hh hm hp he)

/-- Each of the three licence requests is its own act behind steps 1 to 3 of R24. -/
theorem exec_licensing {p : Port} {tag : Option Byte} {s s' : State} {i : Instr} {q : Request}
    (hi : i = .licenceEntry p ∧ (∃ slot e, q = .licenceEntry slot e) ∨ i = .licenceCommit p ∧ q = .licenceCommit
      ∨ i = .licenceErase p ∧ q = .licenceErase) (h : Asked .licence p tag q s s') :
    ∃ f, ∀ y t, licensing p f s' = (y, t) → exec i s = .next (t.answer p tag y) := by
  rcases hi with ⟨rfl, slot, e, rfl⟩ | ⟨rfl, rfl⟩ | ⟨rfl, rfl⟩
  · exact ⟨licenceEntry slot e, fun _ _ => exec_licenceEntry h⟩
  · exact ⟨licenceCommit, fun _ _ => exec_licenceCommit h⟩
  · exact ⟨licenceErase, fun _ _ => exec_licenceErase h⟩

/-- Settles O32: steps 1 to 3 of R24 before every licence request, then each operation begun. -/
theorem licenceCommitAndEraseBeginOperations : Obligations.LicenceCommitAndEraseBeginOperations := by
  refine ⟨fun p tag s s' i q hi h => ?_, fun p tag s s' hh hm => ⟨licenceCommit_asked hh hm, licenceErase_asked hh hm⟩⟩
  obtain ⟨f, hf⟩ := exec_licensing hi h
  obtain ⟨l, rfl⟩ := asked_from h
  exact ⟨fun hh => hf _ _ (licensing_of_not hh), fun hh hm => hf _ _ (licensing_of_operate hh hm),
    fun hh hm hb => hf _ _ (licensing_of_inFlight hh hm hb)⟩

end Sys2Proof.Proofs.Licence

/-! # Completions of the Licence Store -/

namespace Sys2Proof.Proofs.Licence

open Sys2Proof Sys2Proof.Machine

/-! ## Programming and erasing complete (R27, R29) -/

theorem operating_of {s : State} {x : StoreState} (hr : s.phase = .running) (hl : s.licence.loading = false)
    (hx : s.licence.storeState = x) : s.operating x = true := by
  simp [State.operating, hr, hl, hx]

theorem exec_programmingCompletion {read : LicenceTable} {s : State} (h : s.operating .programming = true) :
    exec (.programmingCompletion read) s = .next (s.completeProgramming read) :=
  congrArg Host.Outcome.next (if_pos h)

theorem exec_eraseCompletion {s : State} (h : s.operating .erasing = true) :
    exec .eraseCompletion s = .next s.completeErase :=
  congrArg Host.Outcome.next (if_pos h)

theorem completeProgramming_verified {read : LicenceTable} {s : State} (h : read = s.licence.working) :
    s.completeProgramming read = (s.setLicence (s.licence.record .protected_ s.licence.working)).report .licenceDone :=
  if_pos h

theorem completeProgramming_failed {read : LicenceTable} {s : State} (h : read ≠ s.licence.working) :
    s.completeProgramming read = (s.setLicence (s.licence.record .incomplete emptyLicence)).report .licenceFailed :=
  if_neg h

/-! ## The start-up load ends (R33) -/

theorem exec_startUpLoadEnd {read : LicenceTable} {s : State} (hr : s.phase = .running)
    (hl : s.licence.loading = true) : exec (.startUpLoadEnd read) s = .next (s.endLoad read) :=
  congrArg Host.Outcome.next (if_pos ⟨hr, hl⟩)

theorem loaded_blank {l : LicenceStore} {read : LicenceTable} (h : l.storeState = .blank) :
    l.loaded read = .blank := by
  rw [LicenceStore.loaded, h]

theorem loaded_protected {l : LicenceStore} {read : LicenceTable} (h : l.storeState = .protected_)
    (hc : Config.checkValue read = l.checkValue) : l.loaded read = .protected_ := by
  simp only [LicenceStore.loaded, h, if_pos hc]

/-- The rows of the table of R33 that end in INCOMPLETE. -/
theorem loaded_incomplete {l : LicenceStore} {read : LicenceTable}
    (h : l.storeState = .protected_ ∧ Config.checkValue read ≠ l.checkValue
      ∨ l.storeState = .incomplete ∨ l.storeState = .erasing ∨ l.storeState = .programming) :
    l.loaded read = .incomplete := by
  rcases h with ⟨h, hc⟩ | h | h | h
  · simp only [LicenceStore.loaded, h, if_neg hc]
  all_goals rw [LicenceStore.loaded, h]

theorem endLoad_blank {read : LicenceTable} {s : State} (h : s.licence.storeState = .blank) :
    s.endLoad read = { s with licence := { s.licence with stored := emptyLicence, loading := false } } := by
  simp only [State.endLoad, LicenceStore.loadedTable, loaded_blank h, reduceCtorEq, if_false]
  rw [← h]
  rfl

theorem endLoad_protected {read : LicenceTable} {s : State} (h : s.licence.storeState = .protected_)
    (hc : Config.checkValue read = s.licence.checkValue) :
    s.endLoad read = { s with licence := { s.licence with stored := read, loading := false } } := by
  simp only [State.endLoad, LicenceStore.loadedTable, loaded_protected h hc, reduceCtorEq, if_false, if_true]
  rw [← h]
  rfl

theorem endLoad_incomplete {read : LicenceTable} {s : State} (h : s.licence.loaded read = .incomplete) :
    s.endLoad read =
      { s with
        licence := { s.licence with storeState := .incomplete, stored := emptyLicence, loading := false }
        transit := s.transit ++ [.occurrence SiteKind.licenceFailed.slot] } := by
  simp only [State.endLoad, LicenceStore.loadedTable, h, reduceCtorEq, if_false, if_true]
  rfl

/-- Settles O34: the read-back verified or not, and the rows of the table of R33. -/
theorem licenceOperationsAndLoadComplete : Obligations.LicenceOperationsAndLoadComplete := by
  refine ⟨fun read s hr hl => ⟨fun hx hv => ?_, fun hx hv => ?_, fun hx => ?_⟩,
    fun read s hr hl => ⟨fun hx => ?_, fun hx hc => ?_, fun hx => ?_⟩⟩
  · rw [exec_programmingCompletion (operating_of hr hl hx), completeProgramming_verified hv]
    rfl
  · rw [exec_programmingCompletion (operating_of hr hl hx), completeProgramming_failed hv]
    rfl
  · exact exec_eraseCompletion (operating_of hr hl hx)
  · rw [exec_startUpLoadEnd hr hl, endLoad_blank hx]
  · rw [exec_startUpLoadEnd hr hl, endLoad_protected hx hc]
  · rw [exec_startUpLoadEnd hr hl, endLoad_incomplete (loaded_incomplete hx)]

end Sys2Proof.Proofs.Licence

/-! # A part that does not run -/

namespace Sys2Proof.Proofs.EpochTimebase

open Sys2Proof Sys2Proof.Machine

/-- A part that does not run, with nothing under way between its blocks or on the link (log entries 2, 13, 15). -/
structure Still (s : State) : Prop where
  phase : s.phase ≠ .running
  transit : s.transit = []
  inFlight : s.link.inFlight = none

section NothingUnderWay

variable {s : State} (h : s.transit = [])

include h

theorem take_nothing (key : Message → Bool) : s.take key = none := by
  rw [State.take, h, pull, Option.map_none]

theorem serve_nothing (o : Owner) (p : Port) (f : Request → State → Option (Reply × State)) : serve o p f s = s := by
  rw [serve, take_nothing h]

theorem takeTick_nothing (k : TickConsumer) (f : Word16 → State → State) : takeTick k f s = s := by
  rw [takeTick, take_nothing h]

theorem takeInitNotice_nothing (b : InitBlock) (f : State → State) : takeInitNotice b f s = s := by
  rw [takeInitNotice, take_nothing h]

theorem takePlanTick_nothing : s.takePlanTick = s := by rw [State.takePlanTick, takeTick_nothing h, ite_self]

theorem tickChannel_nothing (c : Chan) (due : Channel → Bool) : tickChannel c due s = s := by
  rw [tickChannel, takeTick_nothing h, ite_self]

theorem takeResult_nothing (c : Chan) (q : Quantity) (f : SequencerParams → Channel → WindowResult → SeqOutcome) :
    takeResult c q f s = s := by
  rw [takeResult, take_nothing h]

end NothingUnderWay

/-- A part that does not run takes a reset, its end and a loss of supply alone (log entry 13): every other command waits
for a message, for the write in flight or for a running part. -/
theorem exec_still {c : Instr} {s : State} (hr : blockOf c ≠ .reset) (hs : Still s) : exec c s = .next s := by
  have htake := take_nothing hs.transit
  cases c
  case hardwareReset | lossOfSupply | endOfHardwareReset => exact absurd rfl hr
  case startUpLoadEnd => exact congrArg Host.Outcome.next (if_neg fun h => hs.phase h.1)
  case programmingCompletion | eraseCompletion =>
    exact congrArg Host.Outcome.next (if_neg (by simp [State.operating, hs.phase]))
  case linkWriteComplete => simp only [exec, execLinkWriteComplete, hs.inFlight]
  case planControllerTick => exact congrArg Host.Outcome.next (takePlanTick_nothing hs.transit)
  case activationAbandoned =>
    simp only [exec, execActivationAbandoned, takePlanTick_nothing hs.transit, ite_self]
  case keepaliveLapse => simp only [exec, execKeepaliveLapse, takeTick_nothing hs.transit, ite_self]
  case authorityTick => exact congrArg Host.Outcome.next (takeTick_nothing hs.transit _ _)
  case sequencerTick | lockTimeout | blankingEnd | settlingExpiry =>
    exact congrArg Host.Outcome.next (tickChannel_nothing hs.transit _ _)
  case rxResult | reflResult | fwdResult => exact congrArg Host.Outcome.next (takeResult_nothing hs.transit _ _ _)
  case planControllerInitialize | sequencerParametersInitialize | levelMonitorInitialize | faultLineInitialize
      | conditionTableInitialize =>
    exact congrArg Host.Outcome.next (takeInitNotice_nothing hs.transit _ _)
  case identify | readStatus | lengthByteAbove60 =>
    simp only [exec, execIdentify, execReadStatus, execLengthByteAbove60, whenRunning_not hs.phase, ite_self]
  case standbyNotice | entryChange | siteStart | siteStop | tuneWriteCompletion | faultShutdown | writeDemand
      | offNotice | faultStandby | initializeNoticeReport | occurrence | deassertionNotice =>
    simp only [exec, execStandbyNotice, execEntryChange, execSiteStart, execSiteStop, execTuneWriteCompletion,
      execFaultShutdown, execWriteDemand, execOffNotice, execFaultStandby, execInitializeNoticeReport, execOccurrence,
      execDeassertionNotice, htake]
  case requestFrameComplete | portReadTransfer | selectPeriodEnd | portSIdleDetect | portSFramingError
      | responseTransmissionStart | responseTransmissionEnd | epochEnd | lockLineChange | sampleArrival | faultPinChange
      | filterIntervalEnd =>
    exact congrArg Host.Outcome.next (whenRunning_not hs.phase)
  all_goals exact congrArg Host.Outcome.next (serve_nothing hs.transit _ _ _)

end Sys2Proof.Proofs.EpochTimebase

/-! # OPERATE, the store and the load through every command -/

namespace Sys2Proof.Proofs.EpochTimebase

open Sys2Proof Sys2Proof.Machine Sys2Proof.Proofs.ChannelPlan

/-! ## Requests under way (R34, R172) -/

theorem mem_of_pulled {key : Message → Bool} {l ms : List Message} {m : Message} (h : pull key l = some (m, ms)) :
    m ∈ l := by
  obtain ⟨-, l₁, l₂, rfl, -, -⟩ := pull_some h
  simp

/-- A request under way was put there by a port: no other block's command adds one. -/
theorem request_kept {c : Instr} {s t : State} {o : Owner} {p : Port} {tag : Option Byte} {body : Request}
    (hr : blockOf c ≠ .reset) (hb : blockOf c ≠ .ports) (h : exec c s = .next t)
    (hm : Message.request o p tag body ∈ t.transit) : Message.request o p tag body ∈ s.transit := by
  by_cases hp : blockOf c = .plan
  · exact ((plan_carried hp h).mem hm).resolve_right Bool.noConfusion
  by_cases hmode : blockOf c = .mode
  · exact ((mode_carried hmode h).mem hm).resolve_right Bool.noConfusion
  · exact ((ordinary_carried hr hp hmode hb h).mem hm).resolve_right Bool.noConfusion

/-- During the load a frame is refused or discarded, and hands nothing to any block. -/
theorem receive_loading {s : State} (hl : s.licence.loading = true) (p : Port) (bytes : List Byte) :
    (s.receive p bytes).transit = s.transit := by
  unfold State.receive
  split
  · rfl
  · rename_i i f _
    unfold State.takeFrame
    split
    · rfl
    · rw [State.takeAddressed, State.setPorts_licence, if_pos hl, answer_transit, State.setPorts_transit]
    · simp [State.takeBroadcast, hl]

theorem whenRunning_transit {f : State → State} {s : State} (hf : (f s).transit = s.transit) :
    (whenRunning f s).transit = s.transit := by
  unfold whenRunning
  split
  · exact hf
  · rfl

/-- During the load the ports put nothing under way (R34). -/
theorem ports_transit_loading {c : Instr} {s t : State} (hb : blockOf c = .ports) (hl : s.licence.loading = true)
    (h : exec c s = .next t) : t.transit = s.transit := by
  have hrun : ∀ p bytes, (whenRunning (State.receive p bytes) s).transit = s.transit := fun p bytes =>
    whenRunning_transit (receive_loading hl p bytes)
  cases c <;> first | (cases hb; done) | skip
  case requestFrameComplete =>
    cases h
    exact hrun _ _
  case identify | readStatus | lengthByteAbove60 =>
    simp only [exec, execIdentify, execReadStatus, execLengthByteAbove60, Host.Outcome.next.injEq] at h
    subst h
    split
    · exact hrun _ _
    · rfl
  all_goals
    cases h
    refine whenRunning_transit ?_
    repeat' split
    all_goals rfl

/-! ## The load and the store (R24, R27, R33) -/

/-- A licence request acts on the store in STANDBY alone (R24 step 2). -/
theorem licensing_cases (p : Port) (f : State → Reply × State) (s : State) :
    (licensing p f s).2 = s ∨ s.mode.mode = .standby ∧ (licensing p f s).2 = (f s).2 := by
  by_cases hh : Holds s p
  swap
  · exact Or.inl (congrArg Prod.snd (holderOnly_of_not hh))
  rw [licensing, holderOnly_of_holds hh]
  cases hm : s.mode.mode with
  | operate => exact Or.inl (by rw [if_pos rfl])
  | standby =>
    rw [if_neg nofun]
    split
    · exact Or.inl rfl
    · exact Or.inr ⟨rfl, rfl⟩

theorem licenceEntry_loading (n : Nat) (x : Option RawLicence) (s : State) :
    (licenceEntry n x s).2.licence.loading = s.licence.loading := by
  unfold licenceEntry
  repeat' split
  all_goals rfl

theorem licenceCommit_loading (s : State) : (licenceCommit s).2.licence.loading = s.licence.loading := by
  unfold licenceCommit
  repeat' split
  all_goals rfl

/-- What a command of the Licence Store does to it: nothing, or, neither in OPERATE nor with a PROTECTED store loaded,
a change that begins no load. -/
def LicenceChange (s t : State) : Prop :=
  t.licence = s.licence
    ∨ (s.mode.mode = .standby ∨ s.licence.storeState ≠ .protected_ ∨ s.licence.loading = true)
      ∧ (t.licence.loading = true → s.licence.loading = true)

theorem serve_licenceChange {p : Port} {f : Request → State → Option (Reply × State)} {s : State}
    (hf : ∀ body u r v, f body u = some (r, v) →
      v = u ∨ u.mode.mode = .standby ∧ v.licence.loading = u.licence.loading) :
    LicenceChange s (serve .licence p f s) := by
  rcases serve_cases .licence p f s with h | ⟨tag, body, ms, r, v, -, -, hb, h⟩
  · exact Or.inl (congrArg State.licence h)
  · rw [h, LicenceChange, State.answer_licence]
    rcases hf _ _ _ _ hb with rfl | ⟨hm, hl⟩
    · exact Or.inl rfl
    · exact Or.inr ⟨Or.inl hm, fun ht => hl ▸ ht⟩

theorem licensing_change {p : Port} {f : State → Reply × State} {u v : State} {r : Reply}
    (hf : (f u).2.licence.loading = u.licence.loading) (h : some (licensing p f u) = some (r, v)) :
    v = u ∨ u.mode.mode = .standby ∧ v.licence.loading = u.licence.loading := by
  obtain rfl : (licensing p f u).2 = v := congrArg Prod.snd (Option.some.inj h)
  refine (licensing_cases p f u).imp_right fun ⟨hm, he⟩ => ⟨hm, ?_⟩
  rw [he, hf]

theorem licence_change {c : Instr} {s t : State} (hc : blockOf c = .licence) (h : exec c s = .next t) :
    LicenceChange s t := by
  cases c <;> first | (cases hc; done) | skip
  case startUpLoadEnd read =>
    simp only [exec, execStartUpLoadEnd, Host.Outcome.next.injEq] at h
    subst h
    split
    · rename_i hl
      exact Or.inr ⟨Or.inr (Or.inr hl.2), fun _ => hl.2⟩
    · exact Or.inl rfl
  case programmingCompletion read =>
    simp only [exec, execProgrammingCompletion, State.completeProgramming, Host.Outcome.next.injEq] at h
    subst h
    split
    · rename_i ho
      have hx : s.licence.storeState ≠ .protected_ := by rintro hx; simp [State.operating, hx] at ho
      refine Or.inr ⟨Or.inr (Or.inl hx), ?_⟩
      split
      · exact id
      · exact id
    · exact Or.inl rfl
  case eraseCompletion =>
    simp only [exec, execEraseCompletion, Host.Outcome.next.injEq] at h
    subst h
    split
    · rename_i ho
      have hx : s.licence.storeState ≠ .protected_ := by rintro hx; simp [State.operating, hx] at ho
      exact Or.inr ⟨Or.inr (Or.inl hx), id⟩
    · exact Or.inl rfl
  case licenceEntry p =>
    cases h
    refine serve_licenceChange fun body u r v hb => ?_
    split at hb
    · exact licensing_change (licenceEntry_loading _ _ _) hb
    · cases hb
  case licenceCommit p =>
    cases h
    refine serve_licenceChange fun body u r v hb => ?_
    split_ifs at hb
    exact licensing_change (licenceCommit_loading _) hb
  case licenceErase p =>
    cases h
    refine serve_licenceChange fun body u r v hb => ?_
    split_ifs at hb
    exact licensing_change rfl hb

/-- In OPERATE over a PROTECTED store with the load over no command changes the store. -/
theorem licence_of_operate {c : Instr} {s t : State} (hr : blockOf c ≠ .reset) (h : exec c s = .next t)
    (hm : s.mode.mode = .operate) (hl : s.licence.loading = false) (hx : s.licence.storeState = .protected_) :
    t.licence = s.licence := by
  by_cases hb : blockOf c = .licence
  · refine (licence_change hb h).resolve_right fun ⟨hn, _⟩ => ?_
    simp [hm, hl, hx] at hn
  · exact licence_other h hr hb

/-- A load begins at the end of a reset alone (R33). -/
theorem loading_of_exec {c : Instr} {s t : State} (hr : blockOf c ≠ .reset) (h : exec c s = .next t)
    (ht : t.licence.loading = true) : s.licence.loading = true := by
  by_cases hb : blockOf c = .licence
  · rcases licence_change hb h with he | ⟨-, hl⟩
    · exact he ▸ ht
    · exact hl ht
  · exact licence_other h hr hb ▸ ht

/-! ## The entry into OPERATE (R128, R129) -/

theorem goStandby_mode (cause : StandbyCause) (s : State) : (s.goStandby cause).mode.mode = .standby := by
  unfold State.goStandby
  split
  · rfl
  · assumption

theorem standby_calm : Calm fun s => s.mode.mode = .standby := ⟨fun _ _ h => h, fun _ _ h => h⟩

theorem initializeAll_standby {s : State} (h : s.mode.mode = .standby) : (initializeAll s).2.mode.mode = .standby := by
  unfold initializeAll
  repeat' split
  all_goals exact h

/-- No command but SET MODE (OPERATE) leaves STANDBY. -/
theorem standby_kept {c : Instr} {s t : State} (hc : ∀ p, c ≠ .setModeOperate p) (h : exec c s = .next t)
    (hm : s.mode.mode = .standby) : t.mode.mode = .standby := by
  by_cases hr : blockOf c = .reset
  · rcases reset_cases hr h with ⟨phase, rfl⟩ | rfl | ⟨pins, rfl⟩
    · rfl
    · exact hm
    · exact hm
  by_cases hb : blockOf c = .mode
  swap
  · rw [mode_other h hr hb]
    exact hm
  cases c <;> first | (cases hb; done) | skip
  case setModeOperate p => exact absurd rfl (hc p)
  case faultStandby n =>
    simp only [exec, execFaultStandby, Host.Outcome.next.injEq] at h
    subst h
    split
    · exact goStandby_mode _ _
    · exact hm
  case initializeNoticeReport b =>
    simp only [exec, execInitializeNoticeReport, Host.Outcome.next.injEq] at h
    subst h
    split
    · rename_i heq
      have hmode := take_quiet (F := State.mode) ⟨fun _ _ => rfl, fun _ _ => rfl⟩ heq
      exact (congrArg ModeControl.mode hmode).trans hm
    · exact hm
  case siteStandby p =>
    cases h
    exact serveOnly_kept standby_calm (fun u _ => goStandby_mode _ u) hm
  case initializeSite p =>
    cases h
    exact serveOnly_kept standby_calm (fun u => holderOnly_kept (P := fun u => u.mode.mode = .standby) fun u hu =>
      initializeAll_standby hu) hm
  case setModeStandby p =>
    cases h
    refine serve_kept standby_calm (fun body u r v hu hb => ?_) hm
    split at hb
    · obtain rfl := congrArg Prod.snd (Option.some.inj hb)
      exact holderOnly_kept (P := fun u => u.mode.mode = .standby) (fun u _ => goStandby_mode _ u) hu
    · cases hb
    · obtain rfl := congrArg Prod.snd (Option.some.inj hb)
      exact holderOnly_kept (P := fun u => u.mode.mode = .standby) (fun _ => id) hu
    · cases hb

/-- The tests a SET MODE (OPERATE) has passed: the store is PROTECTED and the active plan valid (R128). -/
theorem operateRefusal_none {s : State} (h : s.operateRefusal = none) :
    s.licence.storeState = .protected_ ∧ s.validate s.plan.active = none := by
  unfold State.operateRefusal at h
  split_ifs at h with hm ha hf hx
  split at h
  · cases h
  · exact ⟨not_not.1 hx, h⟩

theorem setOperate_mode {s : State} (h : (setOperate s).2.mode.mode = .operate) :
    s.mode.mode = .operate ∨ s.operateRefusal = none := by
  unfold setOperate at h
  split at h
  · exact Or.inl h
  · exact Or.inr ‹_›

theorem holderOnly_setOperate_mode {p : Port} {s : State} (h : (holderOnly p setOperate s).2.mode.mode = .operate) :
    s.mode.mode = .operate ∨ s.operateRefusal = none := by
  unfold holderOnly at h
  split at h
  · exact setOperate_mode h
  · exact Or.inl h

/-- OPERATE is entered by a request to Mode Control that has passed the tests of R128. -/
theorem operate_of_exec {c : Instr} {s t : State} (h : exec c s = .next t) (ht : t.mode.mode = .operate) :
    s.mode.mode = .operate
      ∨ blockOf c = .mode ∧ (∃ o p tag body, Message.request o p tag body ∈ s.transit) ∧ s.operateRefusal = none := by
  by_cases hc : ∀ p, c ≠ .setModeOperate p
  · cases hm : s.mode.mode
    · rw [standby_kept hc h hm] at ht
      cases ht
    · exact Or.inl rfl
  obtain ⟨p, rfl⟩ := not_forall_not.1 hc
  simp only [exec, execSetModeOperate, Host.Outcome.next.injEq] at h
  subst h
  rcases serve_cases .mode p _ s with h | ⟨tag, body, ms, r, v, -, hp, hb, h⟩
  · rw [h] at ht
    exact Or.inl ht
  · have hmem := mem_of_pulled hp
    rw [h, State.answer_mode] at ht
    split at hb
    · cases hb
    · split_ifs at hb
      obtain rfl := congrArg Prod.snd (Option.some.inj hb)
      exact (holderOnly_setOperate_mode ht).imp_right fun hn => ⟨rfl, ⟨_, _, _, _, hmem⟩, hn⟩
    · obtain rfl := congrArg Prod.snd (Option.some.inj hb)
      rw [holderOnly_quiet (F := State.mode) _ fun _ => rfl] at ht
      exact Or.inl ht
    · cases hb

/-! ## The law of OPERATE (R34, R37, R46, R135) -/

theorem resetValues_operateLawful (phase : Phase) (s : State) : (s.resetValues phase).OperateLawful where
  operate h := nomatch h
  loading h := nomatch h
  ticks h := nomatch h
  stopped _ := ⟨rfl, rfl, rfl⟩

/-- At the end of a reset nothing is under way, and the site is in STANDBY. -/
theorem endReset_operateLawful {pins : PinSample} {s : State} (hs : s.OperateLawful) (hp : s.phase = .inReset) :
    (s.endReset pins).OperateLawful := by
  obtain ⟨htransit, -, -⟩ := hs.stopped (by simp [hp])
  refine ⟨fun hm => ?_, fun _ o p tag b hb => ?_, fun _ k n hb => ?_, fun hn => absurd rfl hn⟩
  · exact absurd (hs.operate hm).1 (by simp [hp])
  · exact absurd (htransit ▸ hb) List.not_mem_nil
  · exact absurd (htransit ▸ hb) List.not_mem_nil

/-- What the commands of a reset do, the end of a reset only to a part held in it. -/
theorem reset_due_cases {c : Instr} {s t : State} (hr : blockOf c = .reset) (h : exec c s = .next t) :
    (∃ phase, t = s.resetValues phase) ∨ t = s ∨ s.phase = .inReset ∧ ∃ pins, t = s.endReset pins := by
  by_cases hp : s.phase = .inReset
  · exact (reset_cases hr h).imp_right (Or.imp_right fun he => ⟨hp, he⟩)
  rcases block_reset hr with rfl | rfl | ⟨pins, rfl⟩
  · cases h
    exact Or.inl ⟨_, rfl⟩
  · cases h
    exact Or.inl ⟨_, rfl⟩
  · simp only [exec, execEndOfHardwareReset, if_neg hp, Host.Outcome.next.injEq] at h
    exact Or.inr (Or.inl h.symm)

theorem exec_keeps_operateLawful {c : Instr} {s t : State} (hs : s.OperateLawful) (h : exec c s = .next t) :
    t.OperateLawful := by
  by_cases hr : blockOf c = .reset
  · rcases reset_due_cases hr h with ⟨phase, rfl⟩ | rfl | ⟨hp, pins, rfl⟩
    · exact resetValues_operateLawful _ _
    · exact hs
    · exact endReset_operateLawful hs hp
  refine ⟨fun ht => ?_, fun ht o p tag b hb => ?_, fun ht k n hb => ?_, fun ht => ?_⟩
  · rw [phase_other h hr]
    rcases operate_of_exec h ht with hm | ⟨hb, ⟨o, p, tag, body, hmem⟩, hn⟩
    · obtain ⟨hp, hl, hx⟩ := hs.operate hm
      rw [licence_of_operate hr h hm hl hx]
      exact ⟨hp, hl, hx⟩
    · rw [licence_other h hr (by simp [hb])]
      have hp : s.phase = .running := by
        by_contra hp
        rw [(hs.stopped hp).1] at hmem
        exact List.not_mem_nil hmem
      have hl : s.licence.loading = false := Bool.eq_false_iff.2 fun hl => hs.loading hl _ _ _ _ hmem
      exact ⟨hp, hl, (operateRefusal_none hn).1⟩
  · have hl := loading_of_exec hr h ht
    by_cases hc : blockOf c = .ports
    · exact hs.loading hl o p tag b (ports_transit_loading hc hl h ▸ hb)
    · exact hs.loading hl o p tag b (request_kept hr hc h hb)
  · have hl := loading_of_exec hr h ht
    exact hs.ticks hl k n (tick_not_loading hl hr h hb)
  · have hp : s.phase ≠ .running := phase_other h hr ▸ ht
    obtain ⟨htransit, hlink, hl⟩ := hs.stopped hp
    rw [exec_still hr ⟨hp, htransit, hlink⟩] at h
    cases h
    exact ⟨htransit, hlink, hl⟩

end Sys2Proof.Proofs.EpochTimebase

/-! # Admission through every command -/

namespace Sys2Proof.Proofs.EpochTimebase

open Sys2Proof Sys2Proof.Machine Sys2Proof.Proofs.ChannelPlan Sys2Proof.Proofs.Licence

/-! ## Tables a store admits (R35, R37) -/

/-- The store admits every in-service entry of a table. -/
def Admits (l : LicenceStore) (t : PlanTable) : Prop :=
  ∀ c, (t.get c).service = .inService → l.admits (t.get c) = true

theorem admits_of_validate {s : State} {t : PlanTable} (h : s.validate t = none) : Admits s.licence t := by
  cases hf : planFault s.plan.raster t with
  | none => exact firstRefused_none.1 ((validate_none_iff hf).1 h)
  | some x =>
    rw [validate_of_planFault (d := x.1) (c := x.2) hf] at h
    cases h

theorem admits_default (l : LicenceStore) : Admits l PlanTable.default := fun c hc => by
  rw [default_get] at hc
  cases hc

/-! ## The admission law beside a count of notices -/

/-- The laws of OPERATE and of admission as far as the Plan Controller rests on them, with n for the standby notices under
way: in this form neither messages nor responses break them. -/
structure AdmittedFrom (n : Nat) (s : State) : Prop where
  store : s.mode.mode = .operate → s.licence.loading = false ∧ s.licence.storeState = .protected_
  active : s.mode.mode = .operate → Admits s.licence s.plan.active
  staged : ∀ x, s.plan.pendingActivation = some x → n ≤ x.oldNotices →
    Admits s.licence s.plan.staged ∧ s.licence.storeState = .protected_
  loading : s.licence.loading = true → s.plan.pendingActivation = none

theorem admittedFrom_calm (n : Nat) : Calm (AdmittedFrom n) :=
  ⟨fun _ _ h => ⟨h.store, h.active, h.staged, h.loading⟩, fun _ _ h => ⟨h.store, h.active, h.staged, h.loading⟩⟩

theorem admittedFrom_of_laws {s : State} (ho : s.OperateLawful) (ha : s.AdmissionLawful) :
    AdmittedFrom s.standbyNotices s where
  store hm := (ho.operate hm).2
  active := ha.operate
  staged x hx hn := ⟨ha.pending x hx hn, ha.armed x hx hn⟩
  loading := ha.loading

/-- The law again, where no fewer notices are under way, or nothing is pending. -/
theorem AdmittedFrom.lawful {n : Nat} {s : State} (h : AdmittedFrom n s)
    (hn : n ≤ s.standbyNotices ∨ s.plan.pendingActivation = none) : s.AdmissionLawful := by
  have hold : ∀ x, s.plan.pendingActivation = some x → s.standbyNotices ≤ x.oldNotices → n ≤ x.oldNotices :=
    fun x hx hle => hn.elim (fun h => h.trans hle) fun h => by simp [h] at hx
  exact ⟨h.active, fun x hx hle => (h.staged x hx (hold x hx hle)).1, h.loading,
    fun x hx hle => (h.staged x hx (hold x hx hle)).2⟩

/-! ## The acts of the Plan Controller -/

section Acts

variable {n : Nat} {s : State}

/-- A plan without a pending record, its active table admitted in OPERATE. -/
theorem AdmittedFrom.of_none {t : State} (hs : AdmittedFrom n s) (hm : t.mode = s.mode) (hl : t.licence = s.licence)
    (hp : t.plan.pendingActivation = none) (ha : s.mode.mode = .operate → Admits s.licence t.plan.active) :
    AdmittedFrom n t where
  store := by rw [hm, hl]; exact hs.store
  active := by rw [hm, hl]; exact ha
  staged x hx := by simp [hp] at hx
  loading _ := hp

theorem activate_admitted (m : Word16) (hs : AdmittedFrom n s)
    (ha : s.mode.mode = .operate → Admits s.licence s.plan.staged) : AdmittedFrom n (s.activate m) :=
  hs.of_none rfl rfl rfl ha

theorem abandon_admitted (hs : AdmittedFrom n s) : AdmittedFrom n s.abandon := hs.of_none rfl rfl rfl hs.active

/-- Another record, armed no earlier: the staged plan stays admitted. -/
theorem setPending_admitted {x y : PendingActivation} (hs : AdmittedFrom n s) (hx : s.plan.pendingActivation = some x)
    (hy : y.oldNotices = x.oldNotices) : AdmittedFrom n (s.setPending (some y)) where
  store := hs.store
  active := hs.active
  staged z hz hn := by
    cases hz
    exact hs.staged x hx (hy ▸ hn)
  loading hl := by simp [hs.loading hl] at hx

theorem editing_admitted {p : Port} {b : Bool} {f : State → Reply × State} (hs : AdmittedFrom n s)
    (hf : ∀ u, AdmittedFrom n u → u.plan.pendingActivation = none → AdmittedFrom n (f u).2) :
    AdmittedFrom n (editing p b f s).2 := by
  refine holderOnly_kept (P := AdmittedFrom n) (fun u hu => ?_) hs
  split
  · exact hu
  · rename_i hp
    split
    · exact hu
    · exact hf u hu (by simpa using hp)

theorem storeEntry_admitted {c : Chan} {e : PlanEntry} (hs : AdmittedFrom n s) (hp : s.plan.pendingActivation = none) :
    AdmittedFrom n (storeEntry c e s).2 := by
  cases ha : s.plan.applyMode with
  | wholePlan =>
    rw [storeEntry_wholePlan ha]
    exact hs.of_none rfl rfl hp hs.active
  | perEntry =>
    cases hm : s.mode.mode with
    | standby =>
      rw [storeEntry_standby ha hm]
      exact hs.of_none rfl rfl hp fun ho => by simp [hm] at ho
    | operate =>
      rw [storeEntry_operate ha hm]
      unfold applyInOperate
      split
      · exact hs
      · rename_i hv
        split
        · exact hs
        · exact hs.of_none rfl rfl hp fun _ => admits_of_validate hv

theorem stageEntry_admitted (k : Nat) (r : RawEntry) (hs : AdmittedFrom n s) (hp : s.plan.pendingActivation = none) :
    AdmittedFrom n (stageEntry k r s).2 := by
  unfold stageEntry
  repeat' split
  · exact hs
  · exact hs
  · exact storeEntry_admitted hs hp

/-- Arming judges the staged plan by the stored table, in OPERATE (R36, R50). -/
theorem armActivation_admitted (m : Word16) (kind : Nat) (epoch : Word16) (hs : AdmittedFrom n s) :
    AdmittedFrom n (armActivation m kind epoch s).2 := by
  unfold armActivation
  split
  · exact hs
  cases hm : s.mode.mode with
  | standby => exact hs
  | operate =>
    obtain ⟨hl, hx⟩ := hs.store hm
    rw [if_neg nofun]
    repeat' split
    · exact hs
    · exact hs
    · exact hs
    · exact hs
    · rename_i hv
      exact ⟨hs.store, hs.active, fun _ _ _ => ⟨admits_of_validate hv, hx⟩, fun h => by simp [hl] at h⟩

theorem disarm_admitted (hs : AdmittedFrom n s) : AdmittedFrom n (disarm s).2 := by
  unfold disarm
  split
  · exact hs
  · exact hs.of_none rfl rfl rfl hs.active

/-- ACTIVATE NOW judges the staged plan before it carries it out (R36, R54). -/
theorem activateNow_admitted (m : Word16) (hs : AdmittedFrom n s) : AdmittedFrom n (activateNow m s).2 := by
  unfold activateNow
  repeat' split
  · exact hs
  · exact hs
  · exact hs
  · exact hs
  · exact hs
  · rename_i hv _ _ _
    exact activate_admitted m hs fun _ => admits_of_validate hv

theorem setApplyMode_admitted (value : List Byte) (hs : AdmittedFrom n s) :
    AdmittedFrom n (setApplyMode value s).2 := by
  unfold setApplyMode
  repeat' split
  all_goals exact ⟨hs.store, hs.active, hs.staged, hs.loading⟩

theorem setRaster_admitted (value : List Byte) (hs : AdmittedFrom n s) : AdmittedFrom n (setRaster value s).2 := by
  unfold setRaster
  repeat' split
  all_goals exact ⟨hs.store, hs.active, hs.staged, hs.loading⟩

theorem initializePlan_admitted (hs : AdmittedFrom n s) : AdmittedFrom n s.initializePlan := by
  rw [initializePlan_frame]
  exact hs.of_none rfl rfl rfl fun _ => admits_default _

/-- A tick taken in OPERATE with no standby notice to be taken before it finds the staged plan admitted. -/
theorem planTick_admitted (k : Word16) (hs : AdmittedFrom n s)
    (hdue : s.mode.mode = .operate → ∀ x, s.plan.pendingActivation = some x → n ≤ x.oldNotices) :
    AdmittedFrom n (s.planTick k) := by
  unfold State.planTick State.deferralTest State.targetTest
  split
  · exact hs
  rename_i x hx
  have hact : AdmittedFrom n (s.activate x.planNumber) :=
    activate_admitted _ hs fun hm => (hs.staged x hx (hdue hm x hx)).1
  have hset : ∀ d, AdmittedFrom n (s.setPending (some { x with overdue := d })) := fun d =>
    setPending_admitted hs hx rfl
  repeat' split
  all_goals first
    | exact abandon_admitted hs
    | exact hact
    | exact hset _
    | exact hs

theorem takePlanTick_admitted (hs : AdmittedFrom s.standbyNotices s) :
    AdmittedFrom s.standbyNotices s.takePlanTick := by
  cases hn : s.noticeFirst with
  | true =>
    rw [takePlanTick_waits hn]
    exact hs
  | false =>
    have hdue : s.mode.mode = .operate → ∀ x, s.plan.pendingActivation = some x → s.standbyNotices ≤ x.oldNotices := by
      intro hm x hx
      by_contra hlt
      rw [noticeFirst_iff.2 ⟨hm, x, hx, not_le.1 hlt⟩] at hn
      cases hn
    rw [takePlanTick_due hn]
    rcases takeTick_cases .plan State.planTick s with h | ⟨k, ms, -, h⟩
    · rw [h]
      exact hs
    · rw [h]
      exact planTick_admitted k ((admittedFrom_calm _).transit s ms hs) hdue

/-- After the standby notice nothing is pending (R63). -/
theorem takeStandbyNotice_none (s : State) : s.takeStandbyNotice.plan.pendingActivation = none := by
  unfold State.takeStandbyNotice
  split
  · rfl
  · rename_i h
    simpa using h

theorem takeStandbyNotice_admitted (hs : AdmittedFrom n s) : AdmittedFrom n s.takeStandbyNotice := by
  unfold State.takeStandbyNotice
  split
  · exact abandon_admitted hs
  · exact hs

end Acts

/-! ## Every command -/

/-- A request that the Plan Controller serves by one act. -/
theorem serve_admitted {n : Nat} {s : State} {p : Port} {f : Request → State → Option (Reply × State)}
    (hs : AdmittedFrom n s) (hf : ∀ body u x, AdmittedFrom n u → f body u = some x → AdmittedFrom n x.2) :
    AdmittedFrom n (serve .plan p f s) :=
  serve_kept (admittedFrom_calm n) (fun body u r v hu h => hf body u (r, v) hu h) hs

theorem plan_keeps_admitted {c : Instr} {s t : State} (hs : AdmittedFrom s.standbyNotices s) (hc : blockOf c = .plan)
    (h : exec c s = .next t) : AdmittedFrom s.standbyNotices t := by
  have hcalm := admittedFrom_calm s.standbyNotices
  cases c <;> first | (cases hc; done) | skip
  case planControllerTick =>
    cases h
    exact takePlanTick_admitted hs
  case activationAbandoned =>
    simp only [exec, execActivationAbandoned, Host.Outcome.next.injEq] at h
    subst h
    split
    · exact takePlanTick_admitted hs
    · exact hs
  case standbyNotice =>
    simp only [exec, execStandbyNotice, Host.Outcome.next.injEq] at h
    subst h
    split
    · rename_i heq
      exact takeStandbyNotice_admitted (take_kept hcalm heq hs)
    · exact hs
  case planControllerInitialize =>
    cases h
    exact takeInitNotice_kept hcalm (fun _ => initializePlan_admitted) hs
  case configureApplyMode p =>
    cases h
    exact configureItem_kept hcalm (fun v _ => holderOnly_kept fun _ => setApplyMode_admitted v) hs
  case configureRaster p =>
    cases h
    exact configureItem_kept hcalm (fun v _ => holderOnly_kept fun _ => setRaster_admitted v) hs
  case stageClear p =>
    cases h
    exact serveOnly_kept hcalm
      (fun _ hu => editing_admitted hu fun _ hu hp => hu.of_none rfl rfl hp hu.active) hs
  case stageCopy p =>
    cases h
    exact serveOnly_kept hcalm
      (fun _ hu => editing_admitted hu fun _ hu hp => hu.of_none rfl rfl hp hu.active) hs
  case disarm p =>
    cases h
    exact serveOnly_kept hcalm (fun _ => holderOnly_kept fun _ => disarm_admitted) hs
  case armActivation p =>
    cases h
    refine serve_admitted hs fun body u x hu hx => ?_
    split at hx
    · cases hx
      exact holderOnly_kept (fun _ => armActivation_admitted _ _ _) hu
    · cases hx
  case activateNow p =>
    cases h
    refine serve_admitted hs fun body u x hu hx => ?_
    split at hx
    · cases hx
      exact holderOnly_kept (fun _ => activateNow_admitted _) hu
    · cases hx
  case stageEntry p =>
    cases h
    refine serve_admitted hs fun body u x hu hx => ?_
    split at hx
    · cases hx
      exact editing_admitted hu fun _ => stageEntry_admitted _ _
    · cases hx

/-- STANDBY_NOTICE takes no notice, or leaves nothing pending. -/
theorem standbyNotice_cases {s t : State} (h : exec .standbyNotice s = .next t) :
    t = s ∨ t.plan.pendingActivation = none := by
  simp only [exec, execStandbyNotice, Host.Outcome.next.injEq] at h
  subst h
  split
  · exact Or.inr (takeStandbyNotice_none _)
  · exact Or.inl rfl

theorem plan_keeps_admissionLawful {c : Instr} {s t : State} (ho : s.OperateLawful) (ha : s.AdmissionLawful)
    (hc : blockOf c = .plan) (h : exec c s = .next t) : t.AdmissionLawful := by
  have ht := plan_keeps_admitted (admittedFrom_of_laws ho ha) hc h
  by_cases hn : c = .standbyNotice
  · subst hn
    rcases standbyNotice_cases h with rfl | hnone
    · exact ha
    · exact ht.lawful (Or.inr hnone)
  · exact ht.lawful (Or.inl (standbyNotices_le (by simp [hc]) hn h))

/-- A part held in reset has nothing pending: it is in STANDBY with no notice under way. -/
theorem inReset_pending {s : State} (ho : s.OperateLawful) (hp : s.PendingLawful) (hr : s.phase = .inReset) :
    s.plan.pendingActivation = none := by
  have hnot : s.phase ≠ .running := by simp [hr]
  cases hx : s.plan.pendingActivation with
  | none => rfl
  | some x =>
    obtain ⟨-, hm | hold, -⟩ := hp x hx
    · exact absurd (ho.operate hm).1 hnot
    · simp [State.standbyNotices, (ho.stopped hnot).1] at hold

theorem reset_keeps_admissionLawful {c : Instr} {s t : State} (ho : s.OperateLawful) (hp : s.PendingLawful)
    (ha : s.AdmissionLawful) (hr : blockOf c = .reset) (h : exec c s = .next t) : t.AdmissionLawful := by
  rcases reset_due_cases hr h with ⟨phase, rfl⟩ | rfl | ⟨hi, pins, rfl⟩
  · exact ⟨nofun, nofun, nofun, nofun⟩
  · exact ha
  · have hnone : (s.endReset pins).plan.pendingActivation = none := inReset_pending (s := s) ho hp hi
    refine ⟨fun hm => absurd (ho.operate hm).1 (by simp [hi]), fun x hx => ?_, fun _ => hnone, fun x hx => ?_⟩
    · simp [hnone] at hx
    · simp [hnone] at hx

/-- A command that leaves the plan, and the store in OPERATE, keeps the admission law where it does not enter OPERATE
over an active plan that is not admitted. -/
theorem other_keeps_admissionLawful {c : Instr} {s t : State} (ho : s.OperateLawful) (hp : s.PendingLawful)
    (ha : s.AdmissionLawful) (hr : blockOf c ≠ .reset) (hc : blockOf c ≠ .plan) (h : exec c s = .next t) :
    t.AdmissionLawful := by
  have hplan := plan_other h hr hc
  have hstore : s.mode.mode = .operate → t.licence = s.licence := fun hm =>
    licence_of_operate hr h hm (ho.operate hm).2.1 (ho.operate hm).2.2
  have hnotices := standbyNotices_le hr (by rintro rfl; exact hc rfl) h
  have harmed : ∀ x, s.plan.pendingActivation = some x → t.standbyNotices ≤ x.oldNotices →
      s.mode.mode = .operate ∧ s.standbyNotices ≤ x.oldNotices := fun x hx hle => by
    obtain ⟨-, hm | hold, -⟩ := hp x hx
    · exact ⟨hm, hnotices.trans hle⟩
    · omega
  refine ⟨fun hm => ?_, fun x hx hle => ?_, fun hl => ?_, fun x hx hle => ?_⟩
  · rw [hplan]
    rcases operate_of_exec h hm with hm | ⟨hb, -, hn⟩
    · rw [hstore hm]
      exact ha.operate hm
    · rw [licence_other h hr (by simp [hb])]
      exact admits_of_validate (operateRefusal_none hn).2
  · rw [hplan] at hx ⊢
    obtain ⟨hm, hle⟩ := harmed x hx hle
    rw [hstore hm]
    exact ha.pending x hx hle
  · rw [hplan]
    exact ha.loading (loading_of_exec hr h hl)
  · rw [hplan] at hx
    obtain ⟨hm, hle⟩ := harmed x hx hle
    rw [hstore hm]
    exact ha.armed x hx hle

theorem exec_keeps_admissionLawful {c : Instr} {s t : State} (ho : s.OperateLawful) (hp : s.PendingLawful)
    (ha : s.AdmissionLawful) (h : exec c s = .next t) : t.AdmissionLawful := by
  by_cases hr : blockOf c = .reset
  · exact reset_keeps_admissionLawful ho hp ha hr h
  by_cases hc : blockOf c = .plan
  · exact plan_keeps_admissionLawful ho ha hc h
  · exact other_keeps_admissionLawful ho hp ha hr hc h

/-! ## Every step -/

/-- What a step can be: the front command, nothing, a count of the position, or what EPOCH_END does. -/
theorem step_cases {s t : State} (h : step s = .next t) :
    (∃ c cs, s.pending = c :: cs ∧ exec c { s with pending := cs } = .next t)
      ∨ t = s
      ∨ t = { s with timebase := { s.timebase with position := s.timebase.position + 1 } }
      ∨ exec .epochEnd s = .next t := by
  unfold step at h
  split at h
  · cases h
    exact Or.inr ((idle_cases s).imp_right (Or.imp_left And.right))
  · exact Or.inl ⟨_, _, ‹_›, h⟩

theorem step_keeps_operateLawful {s t : State} (hs : s.OperateLawful) (h : step s = .next t) : t.OperateLawful :=
  step_keeps (P := State.OperateLawful) (fun _ _ hs => ⟨hs.operate, hs.loading, hs.ticks, hs.stopped⟩)
    (fun _ hs _ => ⟨hs.operate, hs.loading, hs.ticks, hs.stopped⟩) (fun _ _ _ => exec_keeps_operateLawful) hs h

theorem step_keeps_admissionLawful {s t : State} (ho : s.OperateLawful) (hp : s.PendingLawful) (ha : s.AdmissionLawful)
    (h : step s = .next t) : t.AdmissionLawful := by
  rcases step_cases h with ⟨c, cs, -, h⟩ | rfl | rfl | h
  · exact exec_keeps_admissionLawful (s := { s with pending := cs }) ⟨ho.operate, ho.loading, ho.ticks, ho.stopped⟩ hp
      ⟨ha.operate, ha.pending, ha.loading, ha.armed⟩ h
  · exact ha
  · exact ⟨ha.operate, ha.pending, ha.loading, ha.armed⟩
  · exact exec_keeps_admissionLawful ho hp ha h

/-- Settles O12: OPERATE is entered by a request that has judged the store and the active plan, the store does not
change in OPERATE, and what the Plan Controller makes active there it has judged, then or at the arming. -/
theorem operateLawKeptByEveryStep : Obligations.OperateLawKeptByEveryStep :=
  ⟨fun _ _ => step_keeps_operateLawful, fun _ _ => step_keeps_admissionLawful⟩

end Sys2Proof.Proofs.EpochTimebase

/-! # The epoch timebase and the read-only items -/

namespace Sys2Proof.Proofs.EpochTimebase

open Sys2Proof Sys2Proof.Machine Sys2Proof.Proofs.ChannelPlan

/-! ## The end of an epoch (R40, R46) -/

/-- At the epoch's last unit EPOCH_END is the passing of that unit (log entry 5). -/
theorem exec_epochEnd_due {s : State} (hr : s.phase = .running)
    (hp : s.timebase.prescale * s.timebase.modulo ≤ s.timebase.position + 1) :
    exec .epochEnd s = .next s.lastUnitPasses :=
  congrArg Host.Outcome.next ((whenRunning_of hr).trans (if_pos hp))

/-- At any other position EPOCH_END does nothing (log entries 3 and 5). -/
theorem exec_epochEnd_early {s : State} (hp : s.timebase.position + 1 < s.timebase.prescale * s.timebase.modulo) :
    exec .epochEnd s = .next s := by
  have hearly : ¬ s.timebase.period ≤ s.timebase.position + 1 := not_le.2 hp
  simp only [exec, execEpochEnd, whenRunning, if_neg hearly, ite_self]

theorem lastUnitPasses_loading {s : State} (h : s.licence.loading = true) : s.lastUnitPasses = s := if_pos h

theorem lastUnitPasses_loaded {s : State} (h : s.licence.loading = false) : s.lastUnitPasses = s.endEpoch :=
  if_neg (by simp [h])

/-- While the start-up load runs no epoch ends (R46, log entry 34). -/
theorem exec_epochEnd_loading {s : State} (h : s.licence.loading = true) : exec .epochEnd s = .next s := by
  simp only [exec, execEpochEnd, whenRunning, lastUnitPasses_loading h, ite_self]

/-- The end of an epoch sends a tick to the Plan Controller, the Authority Unit and the eight sequencers (R40, R41). -/
theorem endEpoch_eq (s : State) : s.endEpoch =
    { s with
      timebase := { s.timebase with counter := s.timebase.counter + 1, position := 0 }
      transit := s.transit
        ++ [.tick .plan (s.timebase.counter + 1), .tick .authority (s.timebase.counter + 1)]
        ++ (List.finRange 8).map (fun c => .tick (.sequencer c) (s.timebase.counter + 1)) } := by
  rw [List.append_assoc]
  rfl

theorem isTick_iff {k : TickConsumer} (x : Message) : x.isTick k = true ↔ ∃ n, x = .tick k n := by
  cases x <;> simp [Message.isTick]

/-! ## SET EPOCH (R43) -/

/-- SET EPOCH asked: its reply goes back through the port. -/
theorem exec_setEpoch {p : Port} {tag : Option Byte} {prescale modulo : Nat} {s s' t : State} {x : Reply}
    (h : Asked .timebase p tag (.setEpoch prescale modulo) s s')
    (hx : holderOnly p (setEpochPeriod prescale modulo) s' = (x, t)) :
    exec (.setEpoch p) s = .next (t.answer p tag x) :=
  congrArg Host.Outcome.next (serve_asked h (congrArg some hx))

theorem prescaleFits_iff {n : Nat} : prescaleFits n = true ↔ n ∈ [1, 2, 4, 8, 16, 32, 64] := List.contains_iff_mem

section SetEpoch

variable {prescale modulo : Nat} {s : State}

theorem setEpochPeriod_of_prescale (h : prescale ∉ [1, 2, 4, 8, 16, 32, 64]) :
    setEpochPeriod prescale modulo s = (.plain .range .prescale, s) := by
  rw [setEpochPeriod, if_pos (by rwa [Bool.not_eq_true', ← Bool.not_eq_true, prescaleFits_iff])]
  rfl

theorem setEpochPeriod_of_modulo (h : prescale ∈ [1, 2, 4, 8, 16, 32, 64]) (hm : modulo < 10 ∨ 65535 < modulo) :
    setEpochPeriod prescale modulo s = (.plain .range .modulo, s) := by
  rw [setEpochPeriod, if_neg (by simp [prescaleFits_iff.2 h]), if_pos (by omega)]
  rfl

theorem setEpochPeriod_of_passes (h : prescale ∈ [1, 2, 4, 8, 16, 32, 64]) (hl : 10 ≤ modulo) (hh : modulo ≤ 65535) :
    setEpochPeriod prescale modulo s =
      (.done (natBytes 1 prescale ++ natBytes 2 modulo ++ natBytes 2 s.timebase.counter.toNat),
        { s with timebase := ⟨prescale, modulo, 0, s.timebase.counter⟩ }) := by
  rw [setEpochPeriod, if_neg (by simp [prescaleFits_iff.2 h]), if_neg (not_not_intro ⟨hl, hh⟩)]
  rfl

end SetEpoch

/-- Settles O35: SET EPOCH by role, PRESCALE and MODULO; EPOCH_END by the position and the load. -/
theorem setEpochAndEpochEnd : Obligations.SetEpochAndEpochEnd := by
  refine ⟨fun p tag prescale modulo s s' h => ?_, fun s => exec_epochEnd_early, fun s => exec_epochEnd_loading,
    fun s hr hl hp => ?_, fun k m s s' => take_iff isTick_iff⟩
  · obtain ⟨l, rfl⟩ := asked_from h
    exact ⟨fun hh => exec_setEpoch h (holderOnly_of_not hh),
      fun hh hp => exec_setEpoch h ((holderOnly_of_holds (s := s') hh).trans (setEpochPeriod_of_prescale hp)),
      fun hh hp hm => exec_setEpoch h ((holderOnly_of_holds (s := s') hh).trans (setEpochPeriod_of_modulo hp hm)),
      fun hh hp hl hm => exec_setEpoch h
        ((holderOnly_of_holds (s := s') hh).trans (setEpochPeriod_of_passes hp hl hm))⟩
  · rw [exec_epochEnd_due hr hp, lastUnitPasses_loaded hl, endEpoch_eq]

/-! ## The read-only items (R45, R115, R166, R182) -/

/-- A reply that the holder alone is given, with nothing changed. -/
theorem holderOnly_reply (p : Port) (x : Reply) (s : State) :
    holderOnly p (fun s => (x, s)) s = (if s.isHolder p then x else .plain .role .none_, s) := by
  unfold holderOnly
  cases s.isHolder p <;> rfl

/-- A CONFIGURE of a read-only item, asked: refused for want of authority, then for the item. -/
theorem configureItem_readOnly {i : Item} {p : Port} {tag : Option Byte} {value : List Byte} {s s' : State} {x : Reply}
    (h : Asked i.owner p tag (.configure i value) s s') :
    configureItem i p (fun _ => holderOnly p fun s => (x, s)) s
      = s'.answer p tag (if s.isHolder p then x else .plain .role .none_) := by
  obtain ⟨l, rfl⟩ := asked_from h
  exact configureItem_holderOnly (f := fun _ s => (x, s)) h (holderOnly_reply p x s')

/-- Settles O36: each item read, or refused, by the owner that took the request. -/
theorem readOnlyItemsReadAndRefused : Obligations.ReadOnlyItemsReadAndRefused := by
  intro p tag s s'
  refine ⟨fun h => ?_, fun h => ?_,
    fun value h => congrArg Host.Outcome.next (configureItem_readOnly (i := .epochPeriod) h),
    fun value h => congrArg Host.Outcome.next (configureItem_readOnly (i := .latestResult) h),
    fun value h => congrArg Host.Outcome.next (configureItem_readOnly (i := .attention_) h)⟩
  · obtain ⟨l, rfl⟩ := asked_from h
    exact congrArg Host.Outcome.next (readItem_asked (i := .epochPeriod) h)
  · obtain ⟨l, rfl⟩ := asked_from h
    exact congrArg Host.Outcome.next (readItem_asked (i := .attention_) h)

/-! ## One step (R39, R40, log entry 5) -/

theorem step_of_cons {c : Instr} {cs : List Instr} {s : State} (h : s.pending = c :: cs) :
    step s = exec c { s with pending := cs } := by
  simp only [step, h]

theorem step_of_nil {s : State} (h : s.pending = []) : step s = .next s.idle := by
  simp only [step, h]

theorem idle_running {s : State} (h : s.phase = .running) : s.idle = s.unitPasses := whenRunning_of h

theorem unitPasses_counts {s : State} (h : s.timebase.position + 1 < s.timebase.prescale * s.timebase.modulo) :
    s.unitPasses = { s with timebase := { s.timebase with position := s.timebase.position + 1 } } :=
  if_pos h

theorem unitPasses_last {s : State} (h : s.timebase.prescale * s.timebase.modulo ≤ s.timebase.position + 1) :
    s.unitPasses = s.lastUnitPasses :=
  if_neg (not_lt.2 h)

/-- Settles O1: the front command where one waits; else one unit by the phase and the position. -/
theorem stepTakesFrontCommand : Obligations.StepTakesFrontCommand := by
  refine ⟨fun c cs s => step_of_cons, fun s h => ⟨fun hr hp => ?_, fun hr hp => ?_, fun hr => ?_⟩⟩
  · rw [step_of_nil h, idle_running hr, unitPasses_counts hp]
  · rw [step_of_nil h, idle_running hr, unitPasses_last hp, exec_epochEnd_due hr hp]
  · rw [step_of_nil h, State.idle, whenRunning_not hr]

end Sys2Proof.Proofs.EpochTimebase

/-! # Activation: its acts and requests -/

namespace Sys2Proof.Proofs.PlanActivation

open Sys2Proof Sys2Proof.Machine Sys2Proof.Proofs.ChannelPlan Sys2Proof.Proofs.Licence

/-! ## Activation readiness (R48, R49) -/

theorem retuning_false_iff {x : ChannelState} : x.retuning = false ↔ x ≠ .tuning ∧ x ≠ .settling := by
  rw [← Bool.not_eq_true, retuning_iff, not_or]

theorem ready_iff {s : State} :
    s.ready = true ↔ ∀ c, (s.channels.get c).state ≠ .tuning ∧ (s.channels.get c).state ≠ .settling := by
  simp only [State.ready, List.all_eq_true, List.mem_finRange, true_implies, Bool.not_eq_true', retuning_false_iff]

theorem ready_false_of {s : State} {c : Chan}
    (h : (s.channels.get c).state = .tuning ∨ (s.channels.get c).state = .settling) : s.ready = false := by
  rw [← Bool.not_eq_true, ready_iff]
  exact fun hr => not_or.2 (hr c) h

/-- Where every channel is ready no channel is named busy. -/
theorem busyChannel_of_ready {s : State}
    (h : ∀ c, (s.channels.get c).state ≠ .tuning ∧ (s.channels.get c).state ≠ .settling) : s.busyChannel = none :=
  lowestChan_none.2 fun c => retuning_false_iff.2 (h c)

/-! ## Carrying out and abandoning, written out (R57, R61, R63) -/

theorem activate_eq (n : Word16) (s : State) : s.activate n =
    { s with
      plan :=
        { s.plan with
          active := s.plan.staged
          number := n
          revision := s.plan.revision + 1
          pendingActivation := none }
      transit := s.transit ++ [.occurrence SiteKind.activationDone.slot]
        ++ ((List.finRange 8).filter fun c => decide (s.plan.active.get c ≠ s.plan.staged.get c)).map
            (fun c => .entryChange c (s.plan.staged.get c)) } := by
  rw [← entryChanges_eq]
  rfl

theorem abandon_eq (s : State) : s.abandon =
    { s with
      plan := { s.plan with pendingActivation := none }
      transit := s.transit ++ [.occurrence SiteKind.activationAbandoned.slot] } := rfl

/-- With no record pending the removal of the record is no change. -/
theorem activated_of_none {k : PlanController} (n : Word16) (h : k.pendingActivation = none) :
    k.activated n = { k with active := k.staged, number := n, revision := k.revision + 1 } := by
  rw [PlanController.activated, ← h]

/-! ## The target (R51) -/

/-- Settles O25: NEXT needs no test, and an epoch equal to the counter is 0 epochs ahead. -/
theorem targetLiesWithinArmWindow : Obligations.TargetLiesWithinArmWindow := by
  refine fun c epoch kind => ⟨rfl, fun hl hh => if_pos ⟨hl, hh⟩, fun h => if_neg ?_, fun hk => ?_⟩
  · rintro ⟨hl, hh⟩
    rcases h with rfl | h
    · simp at hl
    · exact absurd hh (not_le.2 h)
  · match kind, hk with
    | _ + 2, _ => rfl

/-! ## ARM ACTIVATION (R50, R52) -/

section Arm

variable {number epoch : Word16} {kind : Nat} {s : State}

theorem armActivation_of_perEntry (h : s.plan.applyMode = .perEntry) :
    armActivation number kind epoch s = (.plain .state .applyMode, s) := if_pos h

theorem armActivation_of_standby (ha : s.plan.applyMode = .wholePlan) (hm : s.mode.mode = .standby) :
    armActivation number kind epoch s = (.plain .mode .none_, s) := by
  simp [armActivation, Reply.wrongMode, Reply.plain, ha, hm]

variable (ha : s.plan.applyMode = .wholePlan) (hm : s.mode.mode = .operate)

include ha hm

theorem armActivation_of_pending (hp : s.plan.pendingActivation.isSome) :
    armActivation number kind epoch s = (.plain .state .activationPending, s) := by
  simp [armActivation, Reply.plain, ha, hm, hp]

variable (hp : s.plan.pendingActivation = none)

include hp

theorem armActivation_of_zero : armActivation 0 kind epoch s = (.plain .range .planNumber, s) := by
  simp [armActivation, Reply.plain, ha, hm, hp]

variable (hn : number ≠ 0#16)

include hn

theorem armActivation_of_target (ht : targetEpoch s.timebase.counter kind epoch = none) :
    armActivation number kind epoch s = (.plain .range .target, s) := by
  simp [armActivation, Reply.plain, ha, hm, hp, hn, ht]

variable {t : Word16} (ht : targetEpoch s.timebase.counter kind epoch = some t)

include ht

theorem armActivation_of_invalid {x : Reply} (hv : s.validate s.plan.staged = some x) :
    armActivation number kind epoch s = (x, s) := by
  simp [armActivation, ha, hm, hp, hn, ht, hv]

theorem armActivation_of_passes (hv : s.validate s.plan.staged = none) :
    armActivation number kind epoch s =
      (.done (natBytes 2 number.toNat ++ natBytes 2 t.toNat),
        s.setPending (some ⟨number, t, none, s.standbyNotices⟩)) := by
  simp [armActivation, ha, hm, hp, hn, ht, hv]

end Arm

/-- ARM ACTIVATION asked: its reply goes back through the port. -/
theorem exec_armActivation {p : Port} {tag : Option Byte} {number epoch : Word16} {kind : Nat} {s s' t : State}
    {x : Reply} (h : Asked .plan p tag (.armActivation number kind epoch) s s')
    (hx : holderOnly p (armActivation number kind epoch) s' = (x, t)) :
    exec (.armActivation p) s = .next (t.answer p tag x) :=
  congrArg Host.Outcome.next (serve_asked h (congrArg some hx))

theorem exec_armActivation_held {p : Port} {tag : Option Byte} {number epoch : Word16} {kind : Nat} {s s' t : State}
    {x : Reply} (h : Asked .plan p tag (.armActivation number kind epoch) s s') (hh : Holds s' p)
    (hx : armActivation number kind epoch s' = (x, t)) : exec (.armActivation p) s = .next (t.answer p tag x) :=
  exec_armActivation h ((holderOnly_of_holds hh).trans hx)

/-- A request taken leaves the standby notices under way. -/
theorem asked_standbyNotices {o : Owner} {p : Port} {tag : Option Byte} {body : Request} {s s' : State}
    (h : Asked o p tag body s s') : s'.standbyNotices = s.standbyNotices := by
  obtain ⟨ms, hp, rfl⟩ := take_some h
  exact (count_pull (x := .standbyNotice) hp Message.noConfusion).symm

/-- Settles O26: the steps of R50 in order; the request taken is no standby notice, so the record notes as many as were
under way before. -/
theorem armActivationCreatesPendingRecord : Obligations.ArmActivationCreatesPendingRecord := by
  intro p tag number epoch kind s s' h
  have hnotices := asked_standbyNotices h
  obtain ⟨l, rfl⟩ := asked_from h
  refine ⟨fun hh => exec_armActivation h (holderOnly_of_not hh),
    fun hh ha => exec_armActivation_held h hh (armActivation_of_perEntry ha),
    fun hh ha hm => exec_armActivation_held h hh (armActivation_of_standby ha hm),
    fun hh ha hm hp => exec_armActivation_held h hh (armActivation_of_pending ha hm hp),
    fun hh ha hm hp => ⟨?_, fun hn ht => exec_armActivation_held h hh (armActivation_of_target ha hm hp hn ht),
      fun t x hn ht hv => exec_armActivation_held h hh (armActivation_of_invalid (s := s') ha hm hp hn ht hv),
      fun t hn ht hv => ?_⟩⟩
  · rintro rfl
    exact exec_armActivation_held h hh (armActivation_of_zero ha hm hp)
  · refine exec_armActivation_held h hh ((armActivation_of_passes (s := s') ha hm hp hn ht hv).trans ?_)
    rw [hnotices]
    rfl

/-! ## DISARM and the standby notice (R53, R63) -/

/-- DISARM asked: its reply goes back through the port. -/
theorem exec_disarm {p : Port} {tag : Option Byte} {s s' t : State} {x : Reply} (h : Asked .plan p tag .disarm s s')
    (hx : holderOnly p disarm s' = (x, t)) : exec (.disarm p) s = .next (t.answer p tag x) := by
  refine congrArg Host.Outcome.next ((serveOnly_asked h).trans ?_)
  rw [hx]

theorem disarm_of_none {s : State} (h : s.plan.pendingActivation = none) :
    disarm s = (.plain .state .nothingPending, s) := by
  rw [disarm, h]
  rfl

theorem disarm_of_pending {s : State} {x : PendingActivation} (h : s.plan.pendingActivation = some x) :
    disarm s = (.done (natBytes 2 x.planNumber.toNat ++ natBytes 2 x.target.toNat), s.setPending none) := by
  rw [disarm, h]

theorem takeStandbyNotice_of_none {s : State} (h : s.plan.pendingActivation = none) : s.takeStandbyNotice = s :=
  if_neg (by simp [h])

theorem takeStandbyNotice_of_pending {s : State} (h : s.plan.pendingActivation.isSome) :
    s.takeStandbyNotice = s.abandon := if_pos h

theorem exec_standbyNotice_taken {m : Message} {s s' : State} (h : s.take Message.isStandbyNotice = some (m, s')) :
    exec .standbyNotice s = .next s'.takeStandbyNotice := by
  simp only [exec, execStandbyNotice, h]

/-- The state in which a message was taken is the one with it taken, but for what is under way. -/
theorem take_from {key : Message → Bool} {m : Message} {s s' : State} (h : s.take key = some (m, s')) :
    ∃ l, s = { s' with transit := l } := by
  obtain ⟨ms, -, rfl⟩ := take_some h
  exact ⟨s.transit, rfl⟩

/-- Settles O27: both remove the record, DISARM for the holder alone, the notice with ACTIVATION_ABANDONED. -/
theorem disarmAndStandbyNoticeRemovePendingRecord : Obligations.DisarmAndStandbyNoticeRemovePendingRecord := by
  refine ⟨fun p tag s s' h => ?_, fun s s' h => ?_⟩
  · obtain ⟨l, rfl⟩ := asked_from h
    exact ⟨fun hh => exec_disarm h (holderOnly_of_not hh),
      fun hh hp => exec_disarm h ((holderOnly_of_holds (s := s') hh).trans (disarm_of_none hp)),
      fun x hh hp => exec_disarm h ((holderOnly_of_holds (s := s') hh).trans (disarm_of_pending hp))⟩
  · rw [exec_standbyNotice_taken h]
    obtain ⟨l, rfl⟩ := take_from h
    exact ⟨fun hp => congrArg Host.Outcome.next (takeStandbyNotice_of_none hp),
      fun hp => congrArg Host.Outcome.next ((takeStandbyNotice_of_pending (s := s') hp).trans (abandon_eq s'))⟩

/-! ## ACTIVATE NOW (R54 to R57) -/

section ActivateNow

variable {number : Word16} {s : State}

theorem activateNow_of_perEntry (h : s.plan.applyMode = .perEntry) :
    activateNow number s = (.plain .state .applyMode, s) := if_pos h

variable (ha : s.plan.applyMode = .wholePlan)

include ha

theorem activateNow_of_pending (hp : s.plan.pendingActivation.isSome) :
    activateNow number s = (.plain .state .activationPending, s) := by
  simp [activateNow, Reply.plain, ha, hp]

variable (hp : s.plan.pendingActivation = none)

include hp

theorem activateNow_of_zero : activateNow 0 s = (.plain .range .planNumber, s) := by
  simp [activateNow, Reply.plain, ha, hp]

variable (hn : number ≠ 0#16)

include hn

theorem activateNow_of_invalid {x : Reply} (hv : s.validate s.plan.staged = some x) :
    activateNow number s = (x, s) := by
  simp [activateNow, ha, hp, hn, hv]

variable (hv : s.validate s.plan.staged = none)

include hv

theorem activateNow_of_busy {c : Chan} (hm : s.mode.mode = .operate) (hc : s.busyChannel = some c) :
    activateNow number s = (.refused .notReady .sequencerBusy (chanNumber c), s) := by
  simp [activateNow, ha, hp, hn, hv, hm, hc]

theorem activateNow_of_passes (hr : s.mode.mode = .standby ∨ s.busyChannel = none) :
    activateNow number s =
      (.done (natBytes 2 number.toNat ++ natBytes 2 (s.plan.revision + 1).toNat), s.activate number) := by
  rcases hr with hm | hc
  · simp [activateNow, activateDone, ha, hp, hn, hv, hm]
  · simp [activateNow, activateDone, ha, hp, hn, hv, hc]

end ActivateNow

/-- ACTIVATE NOW asked: its reply goes back through the port. -/
theorem exec_activateNow {p : Port} {tag : Option Byte} {number : Word16} {s s' t : State} {x : Reply}
    (h : Asked .plan p tag (.activateNow number) s s') (hx : holderOnly p (activateNow number) s' = (x, t)) :
    exec (.activateNow p) s = .next (t.answer p tag x) :=
  congrArg Host.Outcome.next (serve_asked h (congrArg some hx))

theorem exec_activateNow_held {p : Port} {tag : Option Byte} {number : Word16} {s s' t : State} {x : Reply}
    (h : Asked .plan p tag (.activateNow number) s s') (hh : Holds s' p) (hx : activateNow number s' = (x, t)) :
    exec (.activateNow p) s = .next (t.answer p tag x) :=
  exec_activateNow h ((holderOnly_of_holds hh).trans hx)

/-- An activation with no record pending: the record stays absent. -/
theorem activate_of_none {number : Word16} {s : State} (h : s.plan.pendingActivation = none) : s.activate number =
    { s with
      plan := { s.plan with active := s.plan.staged, number := number, revision := s.plan.revision + 1 }
      transit := s.transit ++ [.occurrence SiteKind.activationDone.slot]
        ++ ((List.finRange 8).filter fun c => decide (s.plan.active.get c ≠ s.plan.staged.get c)).map
            (fun c => .entryChange c (s.plan.staged.get c)) } := by
  rw [activate_eq, ← activated_of_none number h]
  rfl

/-- Settles O28: the steps of R54 in order, then the activation. -/
theorem activateNowCarriesOutActivation : Obligations.ActivateNowCarriesOutActivation := by
  intro p tag number s s' h
  obtain ⟨l, rfl⟩ := asked_from h
  refine ⟨fun hh => exec_activateNow h (holderOnly_of_not hh),
    fun hh ha => exec_activateNow_held h hh (activateNow_of_perEntry ha),
    fun hh ha hp => exec_activateNow_held h hh (activateNow_of_pending ha hp),
    fun hh ha hp => ⟨?_, fun x hn hv => exec_activateNow_held h hh (activateNow_of_invalid (s := s') ha hp hn hv),
      fun c hn hv hm hc hfirst => exec_activateNow_held h hh
        (activateNow_of_busy (s := s') ha hp hn hv hm (lowestChan_of_first hc hfirst)),
      fun hn hv hr => exec_activateNow_held h hh ?_⟩⟩
  · rintro rfl
    exact exec_activateNow_held h hh (activateNow_of_zero ha hp)
  · rw [activateNow_of_passes (s := s') ha hp hn hv (hr.imp_right busyChannel_of_ready), activate_of_none (s := s') hp]

end Sys2Proof.Proofs.PlanActivation

/-! # The Plan Controller's tick -/

namespace Sys2Proof.Proofs.PlanActivation

open Sys2Proof Sys2Proof.Machine Sys2Proof.Proofs.ChannelPlan

/-! ## When a tick is taken (R58, log entry 30) -/

/-- A tick waits behind no notice where the site is not in OPERATE or no record outlived a departure. -/
theorem noticeFirst_false {s : State}
    (h : s.mode.mode = .operate → ∀ x, s.plan.pendingActivation = some x → s.standbyNotices ≤ x.oldNotices) :
    s.noticeFirst = false := by
  rw [← Bool.not_eq_true, noticeFirst_iff]
  rintro ⟨hm, x, hx, hlt⟩
  exact absurd hlt (not_lt.2 (h hm x hx))

theorem exec_planControllerTick_due {n : Word16} {s s' : State}
    (h : s.take (Message.isTick .plan) = some (.tick .plan n, s'))
    (hn : s.mode.mode = .operate → ∀ x, s.plan.pendingActivation = some x → s.standbyNotices ≤ x.oldNotices) :
    exec .planControllerTick s = .next (s'.planTick n) :=
  congrArg Host.Outcome.next ((takePlanTick_due (noticeFirst_false hn)).trans (takeTick_some h))

/-- The tick of a pending record in OPERATE, with no notice sent since the arming. -/
theorem exec_planControllerTick_armed {n : Word16} {s s' : State} {x : PendingActivation}
    (h : s.take (Message.isTick .plan) = some (.tick .plan n, s')) (hx : s.plan.pendingActivation = some x)
    (hn : s.standbyNotices ≤ x.oldNotices) : exec .planControllerTick s = .next (s'.planTick n) :=
  exec_planControllerTick_due h fun _ _ hy => Option.some.inj (hx.symm.trans hy) ▸ hn

/-! ## What a tick does (R58 to R61) -/

section Tick

variable {n : Word16} {x : PendingActivation} {s : State}

theorem planTick_of_none (h : s.plan.pendingActivation = none) : s.planTick n = s := by
  rw [State.planTick, h]

variable (hx : s.plan.pendingActivation = some x)

include hx

theorem planTick_of_standby (hm : s.mode.mode = .standby) : s.planTick n = s.abandon := by
  simp only [State.planTick, hx, hm, if_true]

variable (hm : s.mode.mode = .operate)

include hm

theorem planTick_of_early (ho : x.overdue = none) (hn : n ≠ x.target) : s.planTick n = s := by
  simp [State.planTick, hx, hm, ho, hn]

/-- At the target and at every deferral test readiness carries the activation out. -/
theorem planTick_of_ready (ht : x.overdue = none ∧ n = x.target ∨ x.overdue.isSome) (hr : s.ready = true) :
    s.planTick n = s.activate x.planNumber := by
  rcases ht with ⟨ho, hn⟩ | ho
  · simp [State.planTick, State.targetTest, hx, hm, ho, hn, hr]
  · obtain ⟨k, hk⟩ := Option.isSome_iff_exists.1 ho
    simp [State.planTick, State.deferralTest, hx, hm, hk, hr]

variable (hr : s.ready = false)

include hr

theorem planTick_of_target (ho : x.overdue = none) (hn : n = x.target) :
    s.planTick n = s.setPending (some { x with overdue := some 0 }) := by
  simp [State.planTick, State.targetTest, hx, hm, ho, hn, hr]

theorem planTick_of_deferred {k : Nat} (ho : x.overdue = some k) (hk : k + 1 < 32) :
    s.planTick n = s.setPending (some { x with overdue := some (k + 1) }) := by
  simp [State.planTick, State.deferralTest, Config.deferralTicks, hx, hm, ho, hr, hk]

theorem planTick_of_last {k : Nat} (ho : x.overdue = some k) (hk : k + 1 = 32) : s.planTick n = s.abandon := by
  simp [State.planTick, State.deferralTest, Config.deferralTicks, hx, hm, ho, hr, hk]

theorem givesUp_of_last {k : Nat} (ho : x.overdue = some k) (hk : k + 1 = 32) : s.givesUp = true := by
  simp [State.givesUp, Config.deferralTicks, hx, hm, ho, hr, hk]

end Tick

theorem exec_activationAbandoned_last {s : State} (h : s.givesUp = true) :
    exec .activationAbandoned s = exec .planControllerTick s := congrArg Host.Outcome.next (if_pos h)

/-- Behind a notice that comes first neither command takes a tick. -/
theorem tick_waits {s : State} {x : PendingActivation} (hx : s.plan.pendingActivation = some x)
    (hm : s.mode.mode = .operate) (hn : x.oldNotices < s.standbyNotices) :
    exec .planControllerTick s = .next s ∧ exec .activationAbandoned s = .next s := by
  have hwait : s.takePlanTick = s := takePlanTick_waits (noticeFirst_iff.2 ⟨hm, x, hx, hn⟩)
  exact ⟨congrArg Host.Outcome.next hwait, by simp only [exec, execActivationAbandoned, hwait, ite_self]⟩

/-- Settles O29: the notice first, then by the mode, the target and the readiness of the channels. -/
theorem planTickTestsAndDefersActivation : Obligations.PlanTickTestsAndDefersActivation := by
  intro n s s' h
  obtain ⟨l, rfl⟩ := take_from h
  refine ⟨fun hx => ?_, fun x hx hm => ?_, fun x hx hm hn => tick_waits hx hm hn, fun x hx hm hn ho hne => ?_,
    fun x hx hm hn ht hr => ?_, fun x c hx hm hn hc => ?_⟩
  · rw [exec_planControllerTick_due h (fun _ _ hy => nomatch hx.symm.trans hy), planTick_of_none (s := s') hx]
  · rw [exec_planControllerTick_due h (fun ho => nomatch hm.symm.trans ho), planTick_of_standby (s := s') hx hm, abandon_eq]
  · rw [exec_planControllerTick_armed h hx hn, planTick_of_early (s := s') hx hm ho hne]
  · rw [exec_planControllerTick_armed h hx hn, planTick_of_ready (s := s') hx hm ht (ready_iff.2 hr), activate_eq]
  · have hr : s'.ready = false := ready_false_of hc
    rw [exec_planControllerTick_armed h hx hn]
    refine ⟨fun ho ht => ?_, fun k ho hk => ?_, fun k ho hk => ⟨?_, ?_⟩⟩
    · rw [planTick_of_target (s := s') hx hm hr ho ht]
      rfl
    · rw [planTick_of_deferred (s := s') hx hm hr ho hk]
      rfl
    · rw [planTick_of_last (s := s') hx hm hr ho hk, abandon_eq]
    · rw [exec_activationAbandoned_last (givesUp_of_last hx hm hr ho hk), exec_planControllerTick_armed h hx hn]

end Sys2Proof.Proofs.PlanActivation

/-! # The law of the pending activation, kept by every step -/

namespace Sys2Proof.Proofs.PlanActivation

open Sys2Proof Sys2Proof.Machine Sys2Proof.Proofs.ChannelPlan Sys2Proof.Proofs.EpochTimebase

/-! ## The law beside a count of notices (R47) -/

/-- The law of the pending activation with n for the standby notices under way: in this form neither messages nor
responses break it. -/
def PendingFrom (n : Nat) (s : State) : Prop :=
  ∀ x, s.plan.pendingActivation = some x →
    s.plan.applyMode = .wholePlan ∧ (s.mode.mode = .operate ∨ x.oldNotices < n)
      ∧ x.planNumber ≠ 0 ∧ (∀ k, x.overdue = some k → k < 32) ∧ x.oldNotices ≤ n

theorem pendingFrom_iff {s : State} : PendingFrom s.standbyNotices s ↔ s.PendingLawful := Iff.rfl

theorem pendingFrom_calm (n : Nat) : Calm (PendingFrom n) := ⟨fun _ _ h => h, fun _ _ h => h⟩

theorem PendingFrom.of_none {n : Nat} {s : State} (h : s.plan.pendingActivation = none) : PendingFrom n s :=
  fun _ hx => nomatch h.symm.trans hx

/-- More notices under way break nothing. -/
theorem PendingFrom.mono {n m : Nat} {s : State} (h : PendingFrom n s) (hle : n ≤ m) : PendingFrom m s := by
  intro x hx
  obtain ⟨ha, hm, hnum, ho, hold⟩ := h x hx
  exact ⟨ha, hm.imp_right fun hlt => hlt.trans_le hle, hnum, ho, hold.trans hle⟩

/-- In OPERATE the mode may change once a further notice is under way. -/
theorem PendingFrom.of_notice {n m : Nat} {s t : State} (h : PendingFrom n s) (hp : t.plan = s.plan) (hlt : n < m) :
    PendingFrom m t := by
  intro x hx
  rw [hp] at hx ⊢
  obtain ⟨ha, -, hnum, ho, hold⟩ := h x hx
  exact ⟨ha, Or.inr (hold.trans_lt hlt), hnum, ho, (hold.trans_lt hlt).le⟩

/-- The law speaks of the record, APPLY_MODE and the site mode alone. -/
theorem PendingFrom.of_same {n : Nat} {s t : State} (h : PendingFrom n s)
    (hp : t.plan.pendingActivation = s.plan.pendingActivation) (ha : t.plan.applyMode = s.plan.applyMode)
    (hm : s.mode.mode = .operate → t.mode.mode = .operate) : PendingFrom n t := by
  intro x hx
  obtain ⟨hwhole, hmode, hrest⟩ := h x (hp ▸ hx)
  exact ⟨ha.trans hwhole, hmode.imp_left hm, hrest⟩

/-! ## The acts of the Plan Controller -/

section Acts

variable {n : Nat} {s : State}

/-- An edit finds no record and leaves none, or changes nothing. -/
theorem editing_pendingFrom {p : Port} {b : Bool} {f : State → Reply × State} (hs : PendingFrom n s)
    (hf : ∀ u : State, (f u).2.plan.pendingActivation = u.plan.pendingActivation) :
    PendingFrom n (editing p b f s).2 := by
  refine holderOnly_kept (P := PendingFrom n) (fun u hu => ?_) hs
  split
  · exact hu
  · rename_i hp
    split
    · exact hu
    · exact .of_none ((hf u).trans (by simpa using hp))

theorem storeEntry_pending (c : Chan) (e : PlanEntry) (s : State) :
    (storeEntry c e s).2.plan.pendingActivation = s.plan.pendingActivation := by
  unfold storeEntry applyInOperate
  repeat' split
  all_goals rfl

theorem stageEntry_pending (k : Nat) (r : RawEntry) (s : State) :
    (stageEntry k r s).2.plan.pendingActivation = s.plan.pendingActivation := by
  unfold stageEntry
  repeat' split
  · rfl
  · rfl
  · exact storeEntry_pending _ _ _

theorem wholePlan_of_not {a : ApplyMode} (h : a ≠ .perEntry) : a = .wholePlan := by
  cases a with
  | wholePlan => rfl
  | perEntry => exact absurd rfl h

theorem operate_of_not {m : SiteMode} (h : m ≠ .standby) : m = .operate := by
  cases m with
  | standby => exact absurd rfl h
  | operate => rfl

/-- The record armed is under WHOLE_PLAN, in OPERATE, with a plan number, and notes the notices under way. -/
theorem armActivation_pendingFrom (m : Word16) (kind : Nat) (epoch : Word16) (hs : PendingFrom n s)
    (hn : s.standbyNotices ≤ n) : PendingFrom n (armActivation m kind epoch s).2 := by
  unfold armActivation
  split
  · exact hs
  rename_i ha
  split
  · exact hs
  rename_i hm
  split
  · exact hs
  split
  · exact hs
  rename_i hnum
  repeat' split
  · exact hs
  · exact hs
  · intro x hx
    cases hx
    exact ⟨wholePlan_of_not ha, Or.inl (operate_of_not hm), hnum, nofun, hn⟩

theorem disarm_pendingFrom (hs : PendingFrom n s) : PendingFrom n (disarm s).2 := by
  unfold disarm
  split
  · exact hs
  · exact .of_none rfl

theorem activateNow_pendingFrom (m : Word16) (hs : PendingFrom n s) : PendingFrom n (activateNow m s).2 := by
  unfold activateNow
  repeat' split
  all_goals first
    | exact hs
    | exact .of_none rfl

/-- APPLY_MODE is set with no record pending alone (R17). -/
theorem setApplyMode_pendingFrom (value : List Byte) (hs : PendingFrom n s) :
    PendingFrom n (setApplyMode value s).2 := by
  unfold setApplyMode
  split
  · exact hs
  rename_i hp
  split
  · exact hs
  · exact .of_none (by simpa using hp)

theorem setRaster_pendingFrom (value : List Byte) (hs : PendingFrom n s) : PendingFrom n (setRaster value s).2 := by
  unfold setRaster
  repeat' split
  all_goals exact hs

theorem initializePlan_pendingFrom : PendingFrom n s.initializePlan :=
  .of_none (congrArg PlanController.pendingActivation (initializePlan_plan s))

/-- A deferral sets the overdue count alone, and below 32. -/
theorem setOverdue_pendingFrom {x : PendingActivation} {k : Nat} (hs : PendingFrom n s)
    (hx : s.plan.pendingActivation = some x) (hk : k < 32) :
    PendingFrom n (s.setPending (some { x with overdue := some k })) := by
  intro y hy
  cases hy
  obtain ⟨ha, hm, hnum, -, hold⟩ := hs x hx
  exact ⟨ha, hm, hnum, fun j hj => Option.some.inj hj ▸ hk, hold⟩

theorem deferralTest_pendingFrom {x : PendingActivation} (k : Nat) (hs : PendingFrom n s)
    (hx : s.plan.pendingActivation = some x) : PendingFrom n (s.deferralTest x k) := by
  unfold State.deferralTest
  split
  · exact .of_none rfl
  split
  · exact setOverdue_pendingFrom hs hx ‹_›
  · exact .of_none rfl

theorem targetTest_pendingFrom {x : PendingActivation} (hs : PendingFrom n s)
    (hx : s.plan.pendingActivation = some x) : PendingFrom n (s.targetTest x) := by
  unfold State.targetTest
  split
  · exact .of_none rfl
  · exact setOverdue_pendingFrom hs hx (by omega)

theorem planTick_pendingFrom (m : Word16) (hs : PendingFrom n s) : PendingFrom n (s.planTick m) := by
  unfold State.planTick
  split
  · exact hs
  rename_i x hx
  split
  · exact .of_none rfl
  split
  · exact deferralTest_pendingFrom _ hs hx
  split
  · exact targetTest_pendingFrom hs hx
  · exact hs

end Acts

/-! ## The Plan Controller's commands -/

/-- ARM ACTIVATION taken: the notices it notes are those under way before it. -/
theorem execArmActivation_pendingFrom {p : Port} {s t : State} (hs : s.PendingLawful)
    (h : exec (.armActivation p) s = .next t) : PendingFrom s.standbyNotices t := by
  cases h
  rcases serve_cases .plan p _ s with h | ⟨tag, body, ms, r, v, hasked, -, hb, h⟩
  · rw [h]
    exact hs
  · rw [h]
    refine answer_kept (pendingFrom_calm _) ?_
    split at hb
    · obtain rfl := congrArg Prod.snd (Option.some.inj hb)
      unfold holderOnly
      split
      · exact armActivation_pendingFrom _ _ _ hs (asked_standbyNotices hasked).le
      · exact hs
    · cases hb

/-- A command of the Plan Controller keeps the law beside the notices under way before it. -/
theorem plan_keeps_pendingFrom {c : Instr} {s t : State} (hs : s.PendingLawful) (hc : blockOf c = .plan)
    (h : exec c s = .next t) : PendingFrom s.standbyNotices t := by
  have hcalm := pendingFrom_calm s.standbyNotices
  have htick : PendingFrom s.standbyNotices s.takePlanTick :=
    takePlanTick_kept hcalm (fun m _ => planTick_pendingFrom m) hs
  cases c <;> first | (cases hc; done) | skip
  case planControllerTick =>
    cases h
    exact htick
  case activationAbandoned =>
    simp only [exec, execActivationAbandoned, Host.Outcome.next.injEq] at h
    subst h
    split
    · exact htick
    · exact hs
  case standbyNotice =>
    rcases standbyNotice_cases h with rfl | hnone
    · exact hs
    · exact .of_none hnone
  case planControllerInitialize =>
    cases h
    exact takeInitNotice_kept hcalm (fun _ _ => initializePlan_pendingFrom) hs
  case configureApplyMode p =>
    cases h
    exact configureItem_kept hcalm (fun v _ => holderOnly_kept fun _ => setApplyMode_pendingFrom v) hs
  case configureRaster p =>
    cases h
    exact configureItem_kept hcalm (fun v _ => holderOnly_kept fun _ => setRaster_pendingFrom v) hs
  case stageClear p =>
    cases h
    exact serveOnly_kept hcalm (fun _ hu => editing_pendingFrom hu fun _ => rfl) hs
  case stageCopy p =>
    cases h
    exact serveOnly_kept hcalm (fun _ hu => editing_pendingFrom hu fun _ => rfl) hs
  case disarm p =>
    cases h
    exact serveOnly_kept hcalm (fun _ => holderOnly_kept fun _ => disarm_pendingFrom) hs
  case armActivation p => exact execArmActivation_pendingFrom hs h
  case activateNow p =>
    cases h
    refine serve_kept hcalm (fun body u r v hu hb => ?_) hs
    split at hb
    · obtain rfl := congrArg Prod.snd (Option.some.inj hb)
      exact holderOnly_kept (fun _ => activateNow_pendingFrom _) hu
    · cases hb
  case stageEntry p =>
    cases h
    refine serve_kept hcalm (fun body u r v hu hb => ?_) hs
    split at hb
    · obtain rfl := congrArg Prod.snd (Option.some.inj hb)
      exact editing_pendingFrom hu (stageEntry_pending _ _)
    · cases hb

theorem plan_keeps_pendingLawful {c : Instr} {s t : State} (hs : s.PendingLawful) (hc : blockOf c = .plan)
    (h : exec c s = .next t) : t.PendingLawful := by
  by_cases hn : c = .standbyNotice
  · subst hn
    rcases standbyNotice_cases h with rfl | hnone
    · exact hs
    · exact pendingFrom_iff.1 (.of_none hnone)
  · exact pendingFrom_iff.1 ((plan_keeps_pendingFrom hs hc h).mono (standbyNotices_le (by simp [hc]) hn h))

/-! ## Departures (R132) -/

/-- A departure from OPERATE puts a standby notice under way. -/
theorem goStandby_notices (cause : StandbyCause) {s : State} (h : s.mode.mode = .operate) :
    (s.goStandby cause).standbyNotices = s.standbyNotices + 1 := by
  have hone : standbyMessages.count .standbyNotice = 1 := by decide
  rw [State.goStandby, h, State.standbyNotices, State.enterStandby, State.send_transit, List.count_append, hone]
  rfl

/-- The site is in OPERATE, or more than n standby notices are under way. -/
def OperateOrNoticed (n : Nat) (s : State) : Prop := s.mode.mode = .operate ∨ n < s.standbyNotices

theorem goStandby_noticed {cause : StandbyCause} {n : Nat} {s : State} (hm : s.mode.mode = .operate)
    (hn : s.standbyNotices = n) : OperateOrNoticed n (s.goStandby cause) :=
  Or.inr (by rw [goStandby_notices cause hm, hn]; exact Nat.lt_succ_self n)

theorem answer_noticed {p : Port} {tag : Option Byte} {r : Reply} {n : Nat} {s : State} (h : OperateOrNoticed n s) :
    OperateOrNoticed n (s.answer p tag r) := by
  rwa [OperateOrNoticed, State.answer_mode, State.standbyNotices, State.answer_transit]

/-- A request taken in OPERATE, served by an act that stays in OPERATE or sends a standby notice. -/
theorem serve_noticed {o : Owner} {p : Port} {f : Request → State → Option (Reply × State)} {s : State}
    (hm : s.mode.mode = .operate)
    (hf : ∀ body (u : State) r v, u.mode.mode = .operate → u.standbyNotices = s.standbyNotices →
      f body u = some (r, v) → OperateOrNoticed s.standbyNotices v) :
    OperateOrNoticed s.standbyNotices (serve o p f s) := by
  rcases serve_cases o p f s with h | ⟨tag, body, ms, r, v, hasked, -, hb, h⟩
  · rw [h]
    exact Or.inl hm
  · rw [h]
    exact answer_noticed (hf body { s with transit := ms } r v hm (asked_standbyNotices hasked) hb)

theorem holderOnly_noticed {p : Port} {f : State → Reply × State} {n : Nat} {s : State} (hm : s.mode.mode = .operate)
    (hf : OperateOrNoticed n (f s).2) : OperateOrNoticed n (holderOnly p f s).2 := by
  unfold holderOnly
  split
  · exact hf
  · exact Or.inl hm

theorem setOperate_operate {s : State} (h : s.mode.mode = .operate) : (setOperate s).2.mode.mode = .operate := by
  unfold setOperate
  split
  · exact h
  · rfl

theorem initializeAll_operate {s : State} (h : s.mode.mode = .operate) :
    (initializeAll s).2.mode.mode = .operate := by
  unfold initializeAll
  repeat' split
  all_goals exact h

/-- Mode Control leaves OPERATE by an entry into STANDBY alone, which sends the standby notice. -/
theorem mode_noticed {c : Instr} {s t : State} (hc : blockOf c = .mode) (h : exec c s = .next t)
    (hm : s.mode.mode = .operate) : OperateOrNoticed s.standbyNotices t := by
  cases c <;> first | (cases hc; done) | skip
  case faultStandby n =>
    simp only [exec, execFaultStandby, Host.Outcome.next.injEq] at h
    subst h
    split
    · rename_i m s' heq
      have hk := take_key heq
      obtain ⟨ms, hp, rfl⟩ := take_some heq
      exact goStandby_noticed hm (count_pull hp (by rintro rfl; cases hk)).symm
    · exact Or.inl hm
  case initializeNoticeReport b =>
    simp only [exec, execInitializeNoticeReport, Host.Outcome.next.injEq] at h
    subst h
    split
    · rename_i heq
      obtain ⟨ms, -, rfl⟩ := take_some heq
      exact Or.inl hm
    · exact Or.inl hm
  case siteStandby p =>
    cases h
    refine serve_noticed hm fun body u r v hu hn hb => ?_
    split_ifs at hb
    obtain rfl := congrArg Prod.snd (Option.some.inj hb)
    exact goStandby_noticed hu hn
  case initializeSite p =>
    cases h
    refine serve_noticed hm fun body u r v hu hn hb => ?_
    split_ifs at hb
    obtain rfl := congrArg Prod.snd (Option.some.inj hb)
    exact holderOnly_noticed hu (Or.inl (initializeAll_operate hu))
  case setModeStandby p =>
    cases h
    refine serve_noticed hm fun body u r v hu hn hb => ?_
    split at hb
    · obtain rfl := congrArg Prod.snd (Option.some.inj hb)
      exact holderOnly_noticed hu (goStandby_noticed hu hn)
    · cases hb
    · obtain rfl := congrArg Prod.snd (Option.some.inj hb)
      exact holderOnly_noticed hu (Or.inl hu)
    · cases hb
  case setModeOperate p =>
    cases h
    refine serve_noticed hm fun body u r v hu hn hb => ?_
    split at hb
    · cases hb
    · split_ifs at hb
      obtain rfl := congrArg Prod.snd (Option.some.inj hb)
      exact holderOnly_noticed hu (Or.inl (setOperate_operate hu))
    · obtain rfl := congrArg Prod.snd (Option.some.inj hb)
      exact holderOnly_noticed hu (Or.inl hu)
    · cases hb

/-! ## Every step -/

/-- A command outside the Plan Controller leaves the record, and leaves OPERATE behind a standby notice alone. -/
theorem other_keeps_pendingLawful {c : Instr} {s t : State} (hs : s.PendingLawful) (hr : blockOf c ≠ .reset)
    (hc : blockOf c ≠ .plan) (h : exec c s = .next t) : t.PendingLawful := by
  have hplan := plan_other h hr hc
  have hle := standbyNotices_le hr (by rintro rfl; exact hc rfl) h
  have hstays : s.mode.mode = .operate → OperateOrNoticed s.standbyNotices t := fun hm => by
    by_cases hb : blockOf c = .mode
    · exact mode_noticed hb h hm
    · exact Or.inl ((congrArg ModeControl.mode (mode_other h hr hb)).trans hm)
  rw [← pendingFrom_iff] at hs ⊢
  by_cases hlt : s.standbyNotices < t.standbyNotices
  · exact hs.of_notice hplan hlt
  · refine (hs.of_same ?_ ?_ fun hm => (hstays hm).resolve_right hlt).mono hle
    · rw [hplan]
    · rw [hplan]

theorem reset_keeps_pendingLawful {c : Instr} {s t : State} (hs : s.PendingLawful) (hr : blockOf c = .reset)
    (h : exec c s = .next t) : t.PendingLawful := by
  rcases reset_cases hr h with ⟨phase, rfl⟩ | rfl | ⟨pins, rfl⟩
  · exact pendingFrom_iff.1 (.of_none rfl)
  · exact hs
  · exact hs

theorem exec_keeps_pendingLawful {c : Instr} {s t : State} (hs : s.PendingLawful) (h : exec c s = .next t) :
    t.PendingLawful := by
  by_cases hr : blockOf c = .reset
  · exact reset_keeps_pendingLawful hs hr h
  by_cases hc : blockOf c = .plan
  · exact plan_keeps_pendingLawful hs hc h
  · exact other_keeps_pendingLawful hs hr hc h

/-- Settles O8: a record is armed in OPERATE and notes the notices under way; a departure sends one more, and the standby
notice that is taken removes the record. -/
theorem pendingActivationLawKeptByEveryStep : Obligations.PendingActivationLawKeptByEveryStep := by
  intro s t hs h
  exact step_keeps (P := State.PendingLawful) (fun _ _ hs => hs) (fun _ hs _ => hs)
    (fun _ _ _ => exec_keeps_pendingLawful) hs h

end Sys2Proof.Proofs.PlanActivation

/-! # The sequencers' law through every command -/

namespace Sys2Proof.Proofs.ChannelSequencer

open Sys2Proof Sys2Proof.Machine Sys2Proof.Proofs.ChannelPlan Sys2Proof.Proofs.EpochTimebase

/-! ## The events of one sequencer (R69) -/

/-- The events a sequencer takes, by what they make of its record r under the parameters p. Sent says which entries an
entry change may carry; RASTER and the site mode, which other blocks hold, may be anything. -/
inductive Event (Sent : PlanEntry → Prop) (p : SequencerParams) (r : Channel) : SeqOutcome → Prop
  | tick : Event Sent p r (r.tick p)
  | entryChange (raster : Nat) (operate : Bool) (e : PlanEntry) (he : Sent e) :
      Event Sent p r (r.entryChanged raster operate e)
  | siteStart (raster : Nat) : Event Sent p r (r.siteStart raster)
  | siteStop : Event Sent p r r.siteStop
  | lockLine (side : Side) (asserted : Bool) : Event Sent p r ((r.setLock side asserted).lockChanged p asserted)
  | completion (device : Device) (value : Nat) : Event Sent p r (r.completed device value).only
  | otherResult : Event Sent p r r.only
  | governingRx (mean : Int) : Event Sent p r (r.governingRx mean)
  | refl (mean : Int) : Event Sent p r (r.reflected p mean)
  | fwd (mean : Int) : Event Sent p r (r.forward p mean)
  | faultShutdown : Event Sent p r r.faultShutdown
  | restart (raster : Nat) (hs : r.state = .shutdown) : Event Sent p r (r.enterTuning raster)

/-- What a sequencer's command does to the channel records: nothing, or one event at one sequencer. -/
def OneEvent (s t : State) : Prop :=
  t.channels = s.channels
    ∨ ∃ c o, Event (fun e => Message.entryChange c e ∈ s.transit) s.params (s.channels.get c) o
        ∧ t.channels = put s.channels c (o.final (s.channels.get c))

theorem commit_oneEvent {c : Chan} {o : SeqOutcome} {key : Message → Bool} {m : Message} {s s' : State}
    (h : s.take key = some (m, s'))
    (ho : Event (fun e => Message.entryChange c e ∈ s.transit) s'.params (s'.channels.get c) o) :
    OneEvent s (s'.commit c o) := by
  obtain ⟨ms, -, rfl⟩ := take_some h
  exact Or.inr ⟨c, o, ho, rfl⟩

theorem tickChannel_oneEvent (c : Chan) (due : Channel → Bool) (s : State) : OneEvent s (tickChannel c due s) := by
  unfold tickChannel
  split
  · rcases takeTick_cases (.sequencer c) (fun _ s => s.commit c ((s.channels.get c).tick s.params)) s with
      h | ⟨n, ms, -, h⟩
    · exact Or.inl (congrArg State.channels h)
    · rw [h]
      exact Or.inr ⟨c, _, .tick, rfl⟩
  · exact Or.inl rfl

theorem takeResult_oneEvent {c : Chan} {q : Quantity} {f : SequencerParams → Channel → WindowResult → SeqOutcome}
    {s : State} (hf : ∀ p r w, Event (fun e => Message.entryChange c e ∈ s.transit) p r (f p r w)) :
    OneEvent s (takeResult c q f s) := by
  unfold takeResult
  split
  · split
    · exact commit_oneEvent ‹_› (hf _ _ _)
    · exact Or.inl rfl
  · exact Or.inl rfl

/-- RESTART CHANNEL leaves the records, or takes a channel from SHUTDOWN to TUNING (R88). -/
theorem restartChannel_cases (p : Port) (c : Chan) (s : State) :
    (restartChannel p c s).2 = s ∨ (s.channels.get c).state = .shutdown
      ∧ (restartChannel p c s).2 = s.commit c ((s.channels.get c).enterTuning s.plan.raster) := by
  unfold restartChannel holderOnly
  split
  swap
  · exact Or.inl rfl
  dsimp only
  split_ifs with hm hs
  · exact Or.inl rfl
  · exact Or.inl rfl
  · split
    · exact Or.inl rfl
    · exact Or.inr ⟨not_not.1 hs, rfl⟩

theorem execRestartChannel_oneEvent {p : Port} {b : Byte} {s t : State} (h : exec (.restartChannel p b) s = .next t) :
    OneEvent s t := by
  cases h
  rcases serve_cases (channelOwner b) p _ s with h | ⟨tag, body, ms, r, u, -, -, hf, h⟩
  · exact Or.inl (congrArg State.channels h)
  rw [h, OneEvent, State.answer_channels]
  split at hf
  swap
  · cases hf
  split_ifs at hf
  split at hf
  · rename_i c _
    obtain rfl := congrArg Prod.snd (Option.some.inj hf)
    rcases restartChannel_cases p c { s with transit := ms } with hn | ⟨hs, hn⟩
    · rw [hn]
      exact Or.inl rfl
    · rw [hn]
      exact Or.inr ⟨c, _, .restart _ hs, rfl⟩
  · obtain rfl := congrArg Prod.snd (Option.some.inj hf)
    exact Or.inl (holderOnly_quiet (F := State.channels) _ fun _ => rfl)

/-- Everything a sequencer's command can do to the channel records. -/
theorem channels_oneEvent {i : Instr} {s t : State} (hb : blockOf i = .channels) (h : exec i s = .next t) :
    OneEvent s t := by
  cases i <;> first | (cases hb; done) | skip
  case restartChannel p b => exact execRestartChannel_oneEvent h
  case sequencerTick | lockTimeout | blankingEnd | settlingExpiry =>
    cases h
    exact tickChannel_oneEvent _ _ _
  case entryChange c =>
    simp only [exec, execEntryChange, Host.Outcome.next.injEq] at h
    subst h
    split
    · rename_i d e s' heq
      obtain rfl : d = c := by simpa [Message.isEntryChange] using take_key heq
      obtain ⟨ms, hp, -⟩ := take_some heq
      exact commit_oneEvent heq (.entryChange _ _ e (mem_of_pulled hp))
    · exact Or.inl rfl
  case lockLineChange c side asserted =>
    simp only [exec, execLockLineChange, whenRunning, Host.Outcome.next.injEq] at h
    subst h
    split_ifs
    · exact Or.inl rfl
    · exact Or.inr ⟨c, _, .lockLine side asserted, rfl⟩
    · exact Or.inl rfl
  case rxResult c =>
    cases h
    refine takeResult_oneEvent fun p r w => ?_
    split
    · exact .governingRx _
    · exact .otherResult
  case reflResult c =>
    cases h
    exact takeResult_oneEvent fun p r w => .refl _
  case fwdResult c =>
    cases h
    exact takeResult_oneEvent fun p r w => .fwd _
  case siteStart c =>
    simp only [exec, execSiteStart, Host.Outcome.next.injEq] at h
    subst h
    split
    · exact commit_oneEvent ‹_› (.siteStart _)
    · exact Or.inl rfl
  case siteStop c =>
    simp only [exec, execSiteStop, Host.Outcome.next.injEq] at h
    subst h
    split
    · exact commit_oneEvent ‹_› .siteStop
    · exact Or.inl rfl
  case tuneWriteCompletion c =>
    simp only [exec, execTuneWriteCompletion, Host.Outcome.next.injEq] at h
    subst h
    split
    · exact commit_oneEvent ‹_› (.completion _ _)
    · exact Or.inl rfl
  case faultShutdown c =>
    simp only [exec, execFaultShutdown, Host.Outcome.next.injEq] at h
    subst h
    split
    · exact commit_oneEvent ‹_› .faultShutdown
    · exact Or.inl rfl

/-! ## Every event leaves a lawful record (R68, R71, R84, R91) -/

theorem completed_demandedGain (r : Channel) (d : Device) (v : Nat) :
    (r.completed d v).demandedGain = r.demandedGain := by
  unfold Channel.completed Channel.markWritten
  repeat' split
  all_goals rfl

theorem setLock_demandedGain (r : Channel) (side : Side) (b : Bool) :
    (r.setLock side b).demandedGain = r.demandedGain := by
  cases side <;> rfl

theorem forward_record (p : SequencerParams) (r : Channel) (m : Int) : (r.forward p m).record = r := by
  unfold Channel.forward
  split <;> rfl

theorem only_lawful {r : Channel} (h : r.Lawful) : r.only.record.settled.Lawful := (settled_self h).symm ▸ h

theorem faultShutdown_lawful {r : Channel} (h : r.Lawful) : r.faultShutdown.record.settled.Lawful := by
  by_cases hoff : r.state = .off
  · rw [Channel.faultShutdown, hoff]
    exact only_lawful h
  by_cases hshut : r.state = .shutdown
  · rw [Channel.faultShutdown, hshut]
    exact only_lawful h
  · rw [faultShutdown_of_on hoff hshut]
    exact enterShutdown_lawful (inService_of h hoff)

/-- An event keeps the demanded gain word until its own gain demand is formed (R71). -/
theorem Event.keeps {Sent : PlanEntry → Prop} {p : SequencerParams} {r : Channel} {o : SeqOutcome}
    (h : Event Sent p r o) : o.Keeps r := by
  unfold SeqOutcome.Keeps
  cases h with
  | tick => exact tick_keeps p r
  | entryChange raster operate e _ => exact entryChanged_keeps raster operate r e
  | siteStart raster => unfold Channel.siteStart; split <;> rfl
  | siteStop => unfold Channel.siteStop; split <;> rfl
  | lockLine side asserted => exact (lockChanged_keeps p asserted _).trans (setLock_demandedGain r side asserted)
  | completion device value => exact completed_demandedGain r device value
  | otherResult => rfl
  | governingRx mean => exact governingRx_keeps r mean
  | refl mean => exact reflected_keeps p r mean
  | fwd mean => rw [forward_record]
  | faultShutdown => unfold Channel.faultShutdown; split <;> rfl
  | restart raster _ => rfl

/-- Every event leaves a lawful record once its gain demand is formed. -/
theorem Event.lawful {Sent : PlanEntry → Prop} {p : SequencerParams} {r : Channel} {o : SeqOutcome}
    (h : Event Sent p r o) (hp : p.Lawful) (hr : r.Lawful) : o.record.settled.Lawful := by
  cases h with
  | tick => exact tick_lawful hp hr
  | entryChange raster operate e _ => exact entryChanged_lawful hr e
  | siteStart raster =>
    unfold Channel.siteStart
    split
    · rename_i hs
      exact enterTuning_lawful raster hs.2
    · exact only_lawful hr
  | siteStop =>
    unfold Channel.siteStop
    split
    · exact only_lawful hr
    · exact enterOff_lawful r
  | lockLine side asserted => exact lockChanged_lawful (setLock_lawful hr side asserted) asserted
  | completion device value => exact completed_lawful hr device value
  | otherResult => exact only_lawful hr
  | governingRx mean => exact governingRx_lawful hr mean
  | refl mean => exact reflected_lawful hp hr mean
  | fwd mean => exact (forward_record p r mean).symm ▸ only_lawful hr
  | faultShutdown => exact faultShutdown_lawful hr
  | restart raster hs => exact enterTuning_lawful raster (inService_of hr (by simp [hs]))

/-- The record an event leaves, its gain demand formed. -/
theorem Event.final_eq_settled {Sent : PlanEntry → Prop} {p : SequencerParams} {r : Channel} {o : SeqOutcome}
    (h : Event Sent p r o) (hr : r.Lawful) : o.final r = o.record.settled := final_eq hr.demanded h.keeps

/-! ## Every event leaves a record in its ranges (R68) -/

/-- The ranges of the fields an event sets; the demanded gain word follows from them. -/
theorem settled_inRange {r : Channel} (hg : r.gain ≤ 600) (hf : r.fold ≤ 599) (hb : r.belowCount ≤ 15)
    (hw : r.demandedRx ≤ 1000000 ∧ r.demandedTx ≤ 1000000) : r.settled.InRange :=
  ⟨hg, hf, hb, (Nat.sub_le _ _).trans hg, hw⟩

theorem only_inRange {r : Channel} (h : r.InRange) : r.only.record.settled.InRange :=
  settled_inRange h.gain h.fold h.belowCount h.demandedWords

theorem enterTuning_inRange {r : Channel} (raster : Nat) (he : r.entry.Fits) :
    (r.enterTuning raster).record.settled.InRange :=
  settled_inRange (Nat.zero_le _) (Nat.zero_le _) (Nat.zero_le _)
    ⟨(Nat.div_le_self _ _).trans he.rx.2, (Nat.div_le_self _ _).trans he.tx.2⟩

theorem enterOff_inRange (r : Channel) : r.enterOff.record.settled.InRange :=
  settled_inRange (Nat.zero_le _) (Nat.zero_le _) (Nat.zero_le _) ⟨Nat.zero_le _, Nat.zero_le _⟩

theorem enterShutdown_inRange {r : Channel} (h : r.InRange) : r.enterShutdown.record.settled.InRange :=
  settled_inRange (Nat.zero_le _) (Nat.zero_le _) (Nat.zero_le _) h.demandedWords

theorem loseLock_inRange {r : Channel} (h : r.InRange) : r.loseLock.record.settled.InRange :=
  settled_inRange (Nat.zero_le _) (Nat.zero_le _) (Nat.zero_le _) h.demandedWords

theorem enterOnAir_inRange {r : Channel} (h : r.InRange) (he : r.entry.Fits) : r.enterOnAir.record.settled.InRange := by
  refine settled_inRange ?_ h.fold (Nat.zero_le _) h.demandedWords
  show (match r.entry.gainMode with | .step => r.entry.gainTarget | .ramp => r.gain) ≤ 600
  split
  · exact he.gain
  · exact h.gain

theorem enterSquelched_inRange {r : Channel} (h : r.InRange) : r.enterSquelched.record.settled.InRange :=
  settled_inRange h.gain (Nat.zero_le _) (Nat.zero_le _) h.demandedWords

theorem expireSettling_inRange {r : Channel} (h : r.InRange) (he : r.entry.Fits) :
    r.expireSettling.record.settled.InRange := by
  unfold Channel.expireSettling
  split
  · exact enterOnAir_inRange h he
  · exact enterSquelched_inRange h

theorem enterSettling_inRange {r : Channel} (n : Nat) (h : r.InRange) (he : r.entry.Fits) :
    (r.enterSettling n).record.settled.InRange := by
  have hr : r.settlingRecord.InRange := ⟨h.gain, h.fold, h.belowCount, h.demandedGain, h.demandedWords⟩
  unfold Channel.enterSettling
  split
  · exact expireSettling_inRange hr he
  · exact only_inRange hr

/-- The ramp moves G between its old value and gain_target (R80). -/
theorem rampGain_le {r : Channel} (h : r.InRange) (he : r.entry.Fits) : r.rampGain ≤ 600 := by
  have hgain := h.gain
  have htarget := he.gain
  unfold Channel.rampGain
  split
  · exact hgain
  · split
    · exact (Nat.min_le_right _ _).trans htarget
    · exact max_le ((Nat.sub_le _ _).trans hgain) htarget

theorem tick_inRange {r : Channel} (p : SequencerParams) (h : r.InRange) (he : r.entry.Fits) :
    (r.tick p).record.settled.InRange := by
  have hcounts : ∀ n b x, ({ r with tuneCount := n, blankingCount := b, subPhase := x } : Channel).InRange :=
    fun n b x => ⟨h.gain, h.fold, h.belowCount, h.demandedGain, h.demandedWords⟩
  have hsettle : ({ r with settleCount := r.settleCount + 1 } : Channel).InRange :=
    ⟨h.gain, h.fold, h.belowCount, h.demandedGain, h.demandedWords⟩
  have hramp : (Channel.only { r with gain := r.rampGain }).record.settled.InRange :=
    settled_inRange (rampGain_le h he) h.fold h.belowCount h.demandedWords
  unfold Channel.tick
  split
  case h_4 =>
    unfold Channel.tickTuning Channel.endBlanking
    split_ifs
    · exact enterShutdown_inRange h
    · exact enterSettling_inRange _ (hcounts _ _ _) he
    · exact only_inRange (hcounts _ _ _)
    · exact only_inRange (hcounts _ _ r.subPhase)
    · exact only_inRange (hcounts _ r.blankingCount r.subPhase)
  case h_5 =>
    unfold Channel.tickSettling
    split
    · exact expireSettling_inRange hsettle he
    · exact only_inRange hsettle
  case h_6 | h_7 => exact hramp
  all_goals exact only_inRange h

theorem setLock_inRange {r : Channel} (side : Side) (b : Bool) (h : r.InRange) : (r.setLock side b).InRange := by
  cases side <;> exact ⟨h.gain, h.fold, h.belowCount, h.demandedGain, h.demandedWords⟩

theorem lockChanged_inRange {r : Channel} (p : SequencerParams) (b : Bool) (h : r.InRange) (he : r.entry.Fits) :
    (r.lockChanged p b).record.settled.InRange := by
  unfold Channel.lockChanged
  split
  case h_3 =>
    split
    · exact enterSettling_inRange _ h he
    · exact only_inRange h
  case h_1 | h_2 => exact only_inRange h
  all_goals
    split
    · exact only_inRange h
    · exact loseLock_inRange h

theorem completed_inRange {r : Channel} (d : Device) (v : Nat) (h : r.InRange) : (r.completed d v).InRange := by
  unfold Channel.completed Channel.markWritten
  repeat' split
  all_goals exact ⟨h.gain, h.fold, h.belowCount, h.demandedGain, h.demandedWords⟩

/-- On air the below-count stays under the holdoff, which is at most 16 (R81). -/
theorem belowCounted_inRange {r : Channel} {m : Int} (h : r.InRange) (he : r.entry.Fits)
    (hn : ¬ (m < r.entry.squelchClose ∧ r.entry.squelchHoldoff ≤ r.belowCount + 1)) :
    (Channel.only { r with belowCount := r.nextBelow m }).record.settled.InRange := by
  refine settled_inRange h.gain h.fold ?_ h.demandedWords
  have hholdoff := he.holdoff.2
  show r.nextBelow m ≤ 15
  unfold Channel.nextBelow
  split
  · omega
  · exact Nat.zero_le _

theorem governingRx_inRange {r : Channel} (m : Int) (h : r.InRange) (he : r.entry.Fits) :
    (r.governingRx m).record.settled.InRange := by
  unfold Channel.governingRx
  split
  case h_4 => exact settled_inRange h.gain h.fold h.belowCount h.demandedWords
  case h_5 | h_6 =>
    split
    · exact enterSquelched_inRange h
    · exact belowCounted_inRange h he ‹_›
  case h_7 =>
    split
    · exact enterOnAir_inRange h he
    · exact only_inRange h
  all_goals exact only_inRange h

/-- F grows only while it stays below G (R83). -/
theorem foldMore_inRange {r : Channel} (p : SequencerParams) (h : r.InRange) :
    (r.foldMore p).record.settled.InRange := by
  have hgain := h.gain
  unfold Channel.foldMore
  split
  · exact enterShutdown_inRange h
  · rename_i hn
    have hfold : r.fold + p.foldbackStep ≤ 599 := by omega
    dsimp only
    split <;> exact settled_inRange hgain hfold h.belowCount h.demandedWords

theorem recover_inRange {r : Channel} (p : SequencerParams) (h : r.InRange) : (r.recover p).settled.InRange := by
  unfold Channel.recover
  split
  · exact settled_inRange h.gain ((Nat.sub_le _ _).trans h.fold) h.belowCount h.demandedWords
  · exact settled_inRange h.gain h.fold h.belowCount h.demandedWords

theorem reflected_inRange {r : Channel} (p : SequencerParams) (m : Int) (h : r.InRange) :
    (r.reflected p m).record.settled.InRange := by
  unfold Channel.reflected
  split
  case h_1 =>
    split
    · exact foldMore_inRange p h
    · exact only_inRange h
  case h_2 =>
    split
    · exact foldMore_inRange p h
    · exact recover_inRange p h
  all_goals exact only_inRange h

theorem sameFrequencyChange_inRange {r : Channel} {e : PlanEntry} (h : r.InRange) (he : e.Fits) :
    (r.sameFrequencyChange e).settled.InRange := by
  have hgain : r.gainUnder e ≤ 600 := by
    unfold Channel.gainUnder
    split
    · exact he.gain
    · exact h.gain
  unfold Channel.sameFrequencyChange
  split
  · exact settled_inRange hgain h.fold h.belowCount h.demandedWords
  · exact settled_inRange hgain h.fold (Nat.zero_le _) h.demandedWords

theorem entryChanged_inRange {r : Channel} {e : PlanEntry} (raster : Nat) (operate : Bool) (h : r.InRange)
    (he : e.Fits) : (r.entryChanged raster operate e).record.settled.InRange := by
  have hentry : (Channel.only { r with entry := e }).record.settled.InRange :=
    settled_inRange h.gain h.fold h.belowCount h.demandedWords
  unfold Channel.entryChanged
  split
  case h_1 =>
    split
    · exact enterTuning_inRange raster he
    · exact hentry
  case h_2 =>
    split_ifs
    · exact enterOff_inRange _
    · exact sameFrequencyChange_inRange h he
    · exact hentry
  all_goals
    split_ifs
    · exact enterOff_inRange _
    · exact sameFrequencyChange_inRange h he
    · exact enterTuning_inRange raster he

theorem faultShutdown_inRange {r : Channel} (h : r.InRange) : r.faultShutdown.record.settled.InRange := by
  unfold Channel.faultShutdown
  split
  case h_1 | h_2 => exact only_inRange h
  all_goals exact enterShutdown_inRange h

/-- Where the entries have their form, every event leaves a record in its ranges. -/
theorem Event.inRange {p : SequencerParams} {r : Channel} {o : SeqOutcome} (h : Event PlanEntry.Fits p r o)
    (hr : r.InRange) (he : r.entry.Fits) : o.record.settled.InRange := by
  cases h with
  | tick => exact tick_inRange p hr he
  | entryChange raster operate e he' => exact entryChanged_inRange raster operate hr he'
  | siteStart raster =>
    unfold Channel.siteStart
    split
    · exact enterTuning_inRange raster he
    · exact only_inRange hr
  | siteStop =>
    unfold Channel.siteStop
    split
    · exact only_inRange hr
    · exact enterOff_inRange r
  | lockLine side asserted =>
    exact lockChanged_inRange p asserted (setLock_inRange side asserted hr) ((setLock_entry r side asserted).symm ▸ he)
  | completion device value => exact only_inRange (completed_inRange device value hr)
  | otherResult => exact only_inRange hr
  | governingRx mean => exact governingRx_inRange mean hr he
  | refl mean => exact reflected_inRange p mean hr
  | fwd mean => exact (forward_record p r mean).symm ▸ only_inRange hr
  | faultShutdown => exact faultShutdown_inRange hr
  | restart raster _ => exact enterTuning_inRange raster he

theorem Event.mono {A B : PlanEntry → Prop} {p : SequencerParams} {r : Channel} {o : SeqOutcome} (h : Event A p r o)
    (hab : ∀ e, A e → B e) : Event B p r o := by
  cases h with
  | tick => exact .tick
  | entryChange raster operate e he => exact .entryChange raster operate e (hab e he)
  | siteStart raster => exact .siteStart raster
  | siteStop => exact .siteStop
  | lockLine side asserted => exact .lockLine side asserted
  | completion device value => exact .completion device value
  | otherResult => exact .otherResult
  | governingRx mean => exact .governingRx mean
  | refl mean => exact .refl mean
  | fwd mean => exact .fwd mean
  | faultShutdown => exact .faultShutdown
  | restart raster hs => exact .restart raster hs

/-! ## The six parameters keep their ranges (R70, R97) -/

theorem within_some {low high : Nat} {v : List Byte} {f : Nat → SequencerParams} {k : SequencerParams}
    (h : within low high v f = some k) : ∃ n, low ≤ n ∧ n ≤ high ∧ k = f n := by
  unfold within at h
  split_ifs at h with hn
  exact ⟨beNat v, hn.1, hn.2, (Option.some.inj h).symm⟩

theorem paramsLawful_calm : Calm fun s => s.params.Lawful := ⟨fun _ _ h => h, fun _ _ h => h⟩

theorem configureParams_lawful {i : Item} {p : Port} {set : SequencerParams → List Byte → Option SequencerParams}
    {s : State} (hset : ∀ k v k', k.Lawful → set k v = some k' → k'.Lawful) (hs : s.params.Lawful) :
    (configureParams i p set s).params.Lawful := by
  refine configureItem_kept paramsLawful_calm (fun v u hu =>
    holderOnly_kept (P := fun s => s.params.Lawful) (fun u hu => ?_) hu) hs
  unfold setParams
  split
  · exact hu
  · exact hset _ _ _ hu ‹_›

/-- A parameter is set to a value of its range, or all six to the defaults. -/
theorem params_keeps_lawful {i : Instr} {s t : State} (hb : blockOf i = .params) (h : exec i s = .next t)
    (hs : s.params.Lawful) : t.params.Lawful := by
  cases i <;> first | (cases hb; done) | skip
  case sequencerParametersInitialize =>
    cases h
    exact takeInitNotice_kept paramsLawful_calm (fun _ _ => paramsDefault_lawful) hs
  case configureTuneLimit p =>
    cases h
    refine configureParams_lawful (fun k v k' hk he => ?_) hs
    obtain ⟨n, hl, hh, rfl⟩ := within_some he
    exact { hk with tuneLimit := ⟨hl, hh⟩ }
  case configureSettleEpochs p =>
    cases h
    refine configureParams_lawful (fun k v k' hk he => ?_) hs
    obtain ⟨n, -, hh, rfl⟩ := within_some he
    exact { hk with settleEpochs := hh }
  case configureFoldbackStep p =>
    cases h
    refine configureParams_lawful (fun k v k' hk he => ?_) hs
    obtain ⟨n, hl, hh, rfl⟩ := within_some he
    exact { hk with foldbackStep := ⟨hl, hh⟩ }
  case configureRecoverWindows p =>
    cases h
    refine configureParams_lawful (fun k v k' hk he => ?_) hs
    obtain ⟨n, hl, hh, rfl⟩ := within_some he
    exact { hk with recoverWindows := ⟨hl, hh⟩ }
  case configureReflLimit p =>
    cases h
    refine configureParams_lawful (fun k v k' hk he => ?_) hs
    cases he
    exact { hk with reflLimit := levelOfNat_isLevel _ }
  case configureCarrierFloor p =>
    cases h
    refine configureParams_lawful (fun k v k' hk he => ?_) hs
    cases he
    exact { hk with carrierFloor := levelOfNat_isLevel _ }

/-! ## Every command, every step -/

theorem sampleLocks_lawful {r : Channel} (h : r.Lawful) (rx tx : Bool) : (r.sampleLocks rx tx).Lawful :=
  setLock_lawful (setLock_lawful h .rx rx) .tx tx

theorem sampleLocks_inRange {r : Channel} (h : r.InRange) (rx tx : Bool) : (r.sampleLocks rx tx).InRange :=
  setLock_inRange .tx tx (setLock_inRange .rx rx h)

theorem endReset_channel (pins : PinSample) (s : State) (c : Chan) : (s.endReset pins).channels.get c
    = (s.channels.get c).sampleLocks (pins.lockRx.get c) (pins.lockTx.get c) :=
  ofFn_get _ _

theorem reset_keeps_sequencersLawful {i : Instr} {s t : State} (hs : s.SequencersLawful) (hr : blockOf i = .reset)
    (h : exec i s = .next t) : t.SequencersLawful := by
  rcases reset_cases hr h with ⟨phase, rfl⟩ | rfl | ⟨pins, rfl⟩
  · exact ⟨paramsDefault_lawful, fun c => (resetValues_channel phase s c).symm ▸ atReset_lawful _ _⟩
  · exact hs
  · exact ⟨hs.params, fun c => (endReset_channel pins s c).symm ▸ sampleLocks_lawful (hs.records c) _ _⟩

theorem reset_keeps_inRange {i : Instr} {s t : State} (hs : ∀ c, (s.channels.get c).InRange) (hr : blockOf i = .reset)
    (h : exec i s = .next t) (c : Chan) : (t.channels.get c).InRange := by
  rcases reset_cases hr h with ⟨phase, rfl⟩ | rfl | ⟨pins, rfl⟩
  · exact (resetValues_channel phase s c).symm ▸ atReset_inRange _ _
  · exact hs c
  · exact (endReset_channel pins s c).symm ▸ sampleLocks_inRange (hs c) _ _

/-- What a command outside the resets does to the channel records: nothing, or one event at one sequencer. -/
theorem exec_oneEvent {i : Instr} {s t : State} (hr : blockOf i ≠ .reset) (h : exec i s = .next t) : OneEvent s t := by
  by_cases hb : blockOf i = .channels
  · exact channels_oneEvent hb h
  · exact Or.inl (channels_other h hr hb)

/-- A property of single records that every event keeps is kept by one event at one sequencer. -/
theorem OneEvent.keeps {P : Channel → Prop} {s t : State} (h : OneEvent s t) (hs : ∀ c, P (s.channels.get c))
    (he : ∀ c o, Event (fun e => Message.entryChange c e ∈ s.transit) s.params (s.channels.get c) o →
      P (o.final (s.channels.get c))) (c : Chan) : P (t.channels.get c) := by
  rcases h with h | ⟨d, o, ho, h⟩
  · rw [h]
    exact hs c
  · rw [h, put_get]
    split
    · exact he d o ho
    · exact hs c

theorem exec_keeps_sequencersLawful {i : Instr} {s t : State} (hs : s.SequencersLawful) (h : exec i s = .next t) :
    t.SequencersLawful := by
  by_cases hr : blockOf i = .reset
  · exact reset_keeps_sequencersLawful hs hr h
  refine ⟨?_, (exec_oneEvent hr h).keeps hs.records fun c o ho => ?_⟩
  · by_cases hb : blockOf i = .params
    · exact params_keeps_lawful hb h hs.params
    · rw [params_other h hr hb]
      exact hs.params
  · rw [ho.final_eq_settled (hs.records c)]
    exact ho.lawful hs.params (hs.records c)

theorem exec_keeps_inRange {i : Instr} {s t : State} (hs : s.SequencersLawful) (he : s.EntriesFit)
    (hrange : ∀ c, (s.channels.get c).InRange) (h : exec i s = .next t) (c : Chan) : (t.channels.get c).InRange := by
  by_cases hr : blockOf i = .reset
  · exact reset_keeps_inRange hrange hr h c
  refine (exec_oneEvent hr h).keeps hrange (fun d o ho => ?_) c
  rw [ho.final_eq_settled (hs.records d)]
  exact (ho.mono fun e hm => (he.sent d e hm).1).inRange (hrange d) (he.working d).1

/-- Settles O5: a command makes one event at one sequencer at most, every event leaves a lawful record, and where the
entries have their form one in its ranges. -/
theorem channelLawKeptByEveryStep : Obligations.ChannelLawKeptByEveryStep := by
  refine ⟨fun s t hs h => ?_, fun s t hs he hrange h => ?_⟩
  · exact step_keeps (P := State.SequencersLawful) (fun _ _ hs => ⟨hs.params, hs.records⟩)
      (fun _ hs _ => ⟨hs.params, hs.records⟩) (fun _ _ _ => exec_keeps_sequencersLawful) hs h
  · rcases step_cases h with ⟨i, cs, -, h⟩ | rfl | rfl | h
    · exact exec_keeps_inRange (s := { s with pending := cs }) ⟨hs.params, hs.records⟩
        ⟨he.staged, he.active, he.working, he.sent, he.asked⟩ hrange h
    · exact hrange
    · exact hrange
    · exact exec_keeps_inRange hs he hrange h

end Sys2Proof.Proofs.ChannelSequencer

/-! # Epoch ticks and lock lines at a sequencer -/

namespace Sys2Proof.Proofs.ChannelSequencer

open Sys2Proof Sys2Proof.Machine Sys2Proof.Proofs.ChannelPlan

/-! ## The end of an event, by its outcome -/

section Outcomes

variable {c : Chan} {s : State} {r q : Channel} {o : SeqOutcome} (hr : s.channels.get c = r) (hl : r.Lawful)

include hr hl

/-- The end of an event at a lawful record that leaves the record q and demands and reports nothing more. -/
theorem next_commit_only (ho : o = q.only) (hk : q.demandedGain = r.demandedGain) :
    (.next (s.commit c o) : Host.Outcome State Fault Refusal) = .next (s.afterEvent c q [] []) := by
  subst hr ho
  exact congrArg Host.Outcome.next (commit_eq hl hk)

/-- The end of an event at a lawful record that leaves the record q and reports one occurrence. -/
theorem next_commit_reporting {k : ChannelKind} (ho : o = q.only.reporting k)
    (hk : q.demandedGain = r.demandedGain) : (.next (s.commit c o) : Host.Outcome State Fault Refusal)
      = .next (s.afterEvent c q [] [.occurrence (k.slot c)]) := by
  subst hr ho
  exact congrArg Host.Outcome.next (commit_eq hl hk)

/-- An event that leaves a lawful record as it is and sends nothing changes nothing. -/
theorem next_commit_same (ho : o = r.only) :
    (.next (s.commit c o) : Host.Outcome State Fault Refusal) = .next s := by
  subst hr ho
  exact congrArg Host.Outcome.next (commit_same hl)

end Outcomes

/-- Taking a message leaves the channel records. -/
theorem take_channel {key : Message → Bool} {m : Message} {s s' : State} (h : s.take key = some (m, s')) (c : Chan) :
    s'.channels.get c = s.channels.get c := by
  obtain ⟨l, rfl⟩ := take_from h
  rfl

/-! ## The counts a record holds outside their stages (R68) -/

/-- What a lawful record holds in SETTLING. -/
theorem settling_holds {r : Channel} (h : r.Lawful) (hs : r.state = .settling) :
    r.gain = 0 ∧ r.fold = 0 ∧ r.recoverCount = 0 ∧ r.belowCount = 0 :=
  ⟨h.noGain (by simp [hs]), by simpa [hs] using h.foldIff, h.outsideFoldback (by simp [hs]),
    h.offAir (by simp [hs, ChannelState.carrier])⟩

/-- A lawful record outside SETTLING has no settling mean. -/
theorem mean_outsideSettling {r : Channel} (h : r.Lawful) (hs : r.state ≠ .settling) : r.settlingMean = none := by
  simpa [(h.outsideSettling hs).2] using h.meanIffFresh

/-- Outside SETTLING and SQUELCHED and off the air, clearing a lawful record clears the fields of TUNING alone. -/
theorem cleared_of_quiet {r : Channel} (h : r.Lawful)
    (hs : r.state = .off ∨ r.state = .tuning ∨ r.state = .shutdown) :
    r.cleared = { r with tuneCount := 0, blankingCount := 0, rxWritten := false, txWritten := false } := by
  have hn : r.state ≠ .settling ∧ r.state ≠ .foldback ∧ r.state.carrier = false := by
    rcases hs with hs | hs | hs <;> simp [hs, ChannelState.carrier]
  obtain ⟨hsettling, hfoldback, hcarrier⟩ := hn
  obtain ⟨hsettle, hfresh⟩ := h.outsideSettling hsettling
  have hmean := mean_outsideSettling h hsettling
  have hgain := h.noGain (by tauto)
  have hfold : r.fold = 0 := by simpa [hfoldback] using h.foldIff
  have hrecover := h.outsideFoldback hfoldback
  have hbelow := h.offAir hcarrier
  simp only [Channel.cleared, hsettle, hfresh, hmean, hgain, hfold, hrecover, hbelow]

/-- A lawful record in SHUTDOWN holds the values that entering TUNING gives it. -/
theorem cleared_of_shutdown {r : Channel} (h : r.Lawful) (hs : r.state = .shutdown) : r.cleared = r := by
  obtain ⟨-, htune, hblanking, hrx, htx⟩ := h.outsideTuning (by simp [hs])
  rw [cleared_of_quiet h (by simp [hs])]
  cases r
  simp_all

/-! ## Entering SETTLING from TUNING (R78) -/

section FromTuning

variable {r : Channel} {n : Nat}

/-- What a record in TUNING holds of the later stages. -/
abbrev Untouched (r : Channel) : Prop :=
  r.settleCount = 0 ∧ r.freshRx = false ∧ r.settlingMean = none ∧ r.gain = 0 ∧ r.fold = 0 ∧ r.recoverCount = 0
    ∧ r.belowCount = 0

theorem settlingRecord_of_untouched (h : Untouched r) : r.settlingRecord =
    { r with
      state := .settling, subPhase := none, tuneCount := 0, blankingCount := 0
      rxWritten := false, txWritten := false } := by
  obtain ⟨hsettle, hfresh, hmean, -⟩ := h
  simp only [Channel.settlingRecord, hsettle, hfresh, hmean]

theorem enterSettling_waits (h : Untouched r) (hn : n ≠ 0) : r.enterSettling n = Channel.only
    { r with
      state := .settling, subPhase := none, tuneCount := 0, blankingCount := 0
      rxWritten := false, txWritten := false } := by
  rw [Channel.enterSettling, if_neg hn, settlingRecord_of_untouched h]

/-- With SETTLE_EPOCHS of 0 no result can have been taken in SETTLING: it expires into SQUELCHED. -/
theorem enterSettling_expires (h : Untouched r) (hn : n = 0) : r.enterSettling n = (Channel.only
    { r with
      state := .squelched, subPhase := none, tuneCount := 0, blankingCount := 0
      rxWritten := false, txWritten := false }).reporting .squelchClosed := by
  obtain ⟨hsettle, hfresh, hmean, hgain, hfold, hrecover, hbelow⟩ := h
  have hinput : r.settlingRecord.inputPresent = false := rfl
  rw [Channel.enterSettling, if_pos hn, Channel.expireSettling, if_neg (by simp [hinput])]
  simp only [Channel.enterSquelched, Channel.settlingRecord, hsettle, hfresh, hmean, hfold, hrecover, hbelow]

end FromTuning

/-! ## A tick by the state (R76, R78, R80) -/

section Tick

variable {r : Channel} {p : SequencerParams}

theorem tick_of_resting (hs : r.state = .off ∨ r.state = .squelched ∨ r.state = .shutdown) : r.tick p = r.only := by
  rcases hs with hs | hs | hs <;> simp only [Channel.tick, hs]

theorem tick_of_tuning (hs : r.state = .tuning) : r.tick p = r.tickTuning p := by simp only [Channel.tick, hs]

theorem tick_of_settling (hs : r.state = .settling) : r.tick p = r.tickSettling p := by simp only [Channel.tick, hs]

theorem tick_onAir (hs : r.state = .onAir ∨ r.state = .foldback) :
    r.tick p = Channel.only { r with gain := r.rampGain } := by
  rcases hs with hs | hs <;> simp only [Channel.tick, hs]

theorem timesOut_iff (hs : r.state = .tuning) : r.timesOut p = true ↔ p.tuneLimit ≤ r.tuneCount + 1 := by
  simp [Channel.timesOut, hs]

theorem endsBlanking_iff (hs : r.state = .tuning) (ht : r.tuneCount + 1 < p.tuneLimit)
    (hb : r.subPhase = some .blanking) : r.endsBlanking p = true ↔ 1 ≤ r.blankingCount := by
  have hto : r.timesOut p = false := Bool.eq_false_iff.2 fun h => absurd ((timesOut_iff hs).1 h) (not_le.2 ht)
  simp [Channel.endsBlanking, hs, hto, hb, Config.blankingTicks]

theorem endsSettling_iff (hs : r.state = .settling) :
    r.endsSettling p = true ↔ p.settleEpochs ≤ r.settleCount + 1 := by
  simp [Channel.endsSettling, hs]

/-- The tick that reaches TUNE_LIMIT (R76 step 1). -/
theorem tick_of_timeout (h : r.Lawful) (hs : r.state = .tuning) (ht : p.tuneLimit ≤ r.tuneCount + 1) :
    r.tick p = (Channel.only
      { r with
        state := .shutdown, subPhase := none, tuneCount := 0, blankingCount := 0
        rxWritten := false, txWritten := false }).reporting .lockTimeout := by
  rw [tick_of_tuning hs, Channel.tickTuning, if_pos ((timesOut_iff hs).2 ht), Channel.enterShutdown,
    cleared_of_quiet h (by simp [hs])]

/-- A tick below TUNE_LIMIT in WRITING and WAITING_LOCK (R76 step 3). -/
theorem tick_of_waiting (hs : r.state = .tuning) (ht : r.tuneCount + 1 < p.tuneLimit)
    (hb : r.subPhase ≠ some .blanking) : r.tick p = Channel.only { r with tuneCount := r.tuneCount + 1 } := by
  rw [tick_of_tuning hs, Channel.tickTuning, if_neg (by rw [timesOut_iff hs]; omega), if_neg hb]

theorem tick_of_blanking (hs : r.state = .tuning) (ht : r.tuneCount + 1 < p.tuneLimit)
    (hb : r.subPhase = some .blanking) (hc : r.blankingCount = 0) :
    r.tick p = Channel.only { r with tuneCount := r.tuneCount + 1, blankingCount := 1 } := by
  rw [tick_of_tuning hs, Channel.tickTuning, if_neg (by rw [timesOut_iff hs]; omega), if_pos hb,
    if_neg (by rw [endsBlanking_iff hs ht hb]; omega), hc]

/-- The tick that ends BLANKING (R76 step 2). -/
theorem tick_of_blankingEnd (hs : r.state = .tuning) (ht : r.tuneCount + 1 < p.tuneLimit)
    (hb : r.subPhase = some .blanking) (hc : 1 ≤ r.blankingCount) :
    r.tick p = ({ r with tuneCount := r.tuneCount + 1, blankingCount := r.blankingCount + 1 } : Channel).endBlanking p := by
  rw [tick_of_tuning hs, Channel.tickTuning, if_neg (by rw [timesOut_iff hs]; omega), if_pos hb,
    if_pos ((endsBlanking_iff hs ht hb).2 hc)]

theorem endBlanking_unlocked (h : r.lockRx = false ∨ r.lockTx = false) :
    r.endBlanking p = Channel.only { r with subPhase := some .waitingLock } :=
  if_neg (by rcases h with h | h <;> simp [h])

theorem endBlanking_locked (hrx : r.lockRx = true) (htx : r.lockTx = true) :
    r.endBlanking p = ({ r with subPhase := some .waitingLock } : Channel).enterSettling p.settleEpochs :=
  if_pos (by simp [hrx, htx])

/-- BLANKING ended with a lock level deasserted leaves WAITING_LOCK. -/
theorem tick_of_blankingEnd_unlocked (hs : r.state = .tuning) (ht : r.tuneCount + 1 < p.tuneLimit)
    (hb : r.subPhase = some .blanking) (hc : 1 ≤ r.blankingCount) (hlock : r.lockRx = false ∨ r.lockTx = false) :
    r.tick p = Channel.only
      { r with
        tuneCount := r.tuneCount + 1, blankingCount := r.blankingCount + 1, subPhase := some .waitingLock } := by
  rw [tick_of_blankingEnd hs ht hb hc]
  exact endBlanking_unlocked (r := { r with tuneCount := r.tuneCount + 1, blankingCount := r.blankingCount + 1 }) hlock

/-- BLANKING ended with both lock levels asserted goes on to SETTLING, or, where that expires at once, to SQUELCHED. -/
theorem tick_of_blankingEnd_locked (h : r.Lawful) (hs : r.state = .tuning) (ht : r.tuneCount + 1 < p.tuneLimit)
    (hb : r.subPhase = some .blanking) (hc : 1 ≤ r.blankingCount) (hrx : r.lockRx = true) (htx : r.lockTx = true) :
    (p.settleEpochs ≠ 0 → r.tick p = Channel.only
      { r with
        state := .settling, subPhase := none, tuneCount := 0, blankingCount := 0
        rxWritten := false, txWritten := false })
    ∧ (p.settleEpochs = 0 → r.tick p = (Channel.only
      { r with
        state := .squelched, subPhase := none, tuneCount := 0, blankingCount := 0
        rxWritten := false, txWritten := false }).reporting .squelchClosed) := by
  have hr : Untouched r := tuning_holds h hs
  have hu : Untouched { r with
    tuneCount := r.tuneCount + 1, blankingCount := r.blankingCount + 1, subPhase := some .waitingLock } := hr
  rw [tick_of_blankingEnd hs ht hb hc,
    endBlanking_locked (r := { r with tuneCount := r.tuneCount + 1, blankingCount := r.blankingCount + 1 }) hrx htx]
  exact ⟨enterSettling_waits hu, enterSettling_expires hu⟩

theorem tick_of_settled (hs : r.state = .settling) (hn : r.settleCount + 1 < p.settleEpochs) :
    r.tick p = Channel.only { r with settleCount := r.settleCount + 1 } := by
  rw [tick_of_settling hs, Channel.tickSettling, if_neg (by rw [endsSettling_iff hs]; omega)]

theorem tick_of_expiry (hs : r.state = .settling) (hn : p.settleEpochs ≤ r.settleCount + 1) :
    r.tick p = ({ r with settleCount := r.settleCount + 1 } : Channel).expireSettling := by
  rw [tick_of_settling hs, Channel.tickSettling, if_pos ((endsSettling_iff hs).2 hn)]

/-- Settling expires into ON_AIR with a settling mean at or above squelch_open (R78). -/
theorem tick_of_expiry_open (h : r.Lawful) (hs : r.state = .settling) (hn : p.settleEpochs ≤ r.settleCount + 1) {m : Int}
    (hm : r.settlingMean = some m) (ho : r.entry.squelchOpen ≤ m) : r.tick p = Channel.only
      { r with
        state := .onAir, settleCount := 0, freshRx := false, settlingMean := none
        gain := if r.entry.gainMode = .step then r.entry.gainTarget else 0 } := by
  obtain ⟨hgain, hfold, hrecover, hbelow⟩ := settling_holds h hs
  have hfresh : r.freshRx = true := by simpa [hm] using h.meanIffFresh.symm
  have hinput : ({ r with settleCount := r.settleCount + 1 } : Channel).inputPresent = true := by
    simp [Channel.inputPresent, hfresh, hm, ho]
  rw [tick_of_expiry hs hn, Channel.expireSettling, if_pos hinput, Channel.enterOnAir]
  simp only [hrecover, hbelow, hgain]
  cases r.entry.gainMode <;> rfl

/-- Settling expires into SQUELCHED without such a mean (R78). -/
theorem tick_of_expiry_closed (h : r.Lawful) (hs : r.state = .settling) (hn : p.settleEpochs ≤ r.settleCount + 1)
    (hm : ∀ m, r.settlingMean = some m → m < r.entry.squelchOpen) : r.tick p = (Channel.only
      { r with state := .squelched, settleCount := 0, freshRx := false, settlingMean := none }).reporting
        .squelchClosed := by
  obtain ⟨hgain, hfold, hrecover, hbelow⟩ := settling_holds h hs
  have hinput : ({ r with settleCount := r.settleCount + 1 } : Channel).inputPresent = false := by
    cases hx : r.settlingMean with
    | none => simp [Channel.inputPresent]
    | some m => simp [Channel.inputPresent, hm m hx]
  rw [tick_of_expiry hs hn, Channel.expireSettling, if_neg (by simp [hinput]), Channel.enterSquelched]
  simp only [hrecover, hbelow, hfold]

/-- Under STEP a tick on air changes nothing (R80). -/
theorem tick_of_step (hs : r.state = .onAir ∨ r.state = .foldback) (hg : r.entry.gainMode = .step) :
    r.tick p = r.only := by
  rw [tick_onAir hs, Channel.rampGain, hg]

/-- Under RAMP a tick on air moves G toward gain_target by ramp_rate (R80). -/
theorem tick_of_ramp (hs : r.state = .onAir ∨ r.state = .foldback) {k : Nat} (hg : r.entry.gainMode = .ramp)
    (hk : r.entry.rampRate = some k) : r.tick p = Channel.only
      { r with
        gain :=
          if r.gain < r.entry.gainTarget then Nat.min (r.gain + k) r.entry.gainTarget
          else Nat.max (r.gain - k) r.entry.gainTarget } := by
  rw [tick_onAir hs, Channel.rampGain, hg, hk, Option.getD_some]

end Tick

/-! ## The tick commands (R76, R78, R80, log entry 4) -/

section TickCommands

variable {c : Chan} {s s' : State} {n : Word16}

theorem exec_sequencerTick {r : Channel} (hr : r = s.channels.get c)
    (h : s.take (Message.isTick (.sequencer c)) = some (.tick (.sequencer c) n, s')) :
    exec (.sequencerTick c) s = .next (s'.commit c (r.tick s.params)) := by
  have htick : exec (.sequencerTick c) s = .next (s'.commit c ((s'.channels.get c).tick s'.params)) :=
    congrArg Host.Outcome.next ((if_pos rfl).trans (takeTick_some h))
  rw [htick, take_channel h, ← hr]
  obtain ⟨l, rfl⟩ := take_from h
  rfl

/-- A command of one case of the tick is the tick where its case applies. -/
theorem tickChannel_due {r : Channel} {due : Channel → Bool} (hr : r = s.channels.get c) (h : due r = true) :
    (.next (tickChannel c due s) : Host.Outcome State Fault Refusal) = exec (.sequencerTick c) s := by
  subst hr
  exact congrArg Host.Outcome.next ((if_pos h).trans (if_pos rfl).symm)

end TickCommands

/-- Settles O37: a tick by the state of the record; the commands of its cases are due where their tests hold. -/
theorem sequencerTickActsByState : Obligations.SequencerTickActsByState := by
  intro c n s s' r hs hr h
  have hl : r.Lawful := hr ▸ hs.records c
  have hr' : s'.channels.get c = r := (take_channel h c).trans hr.symm
  rw [exec_sequencerTick hr h]
  refine ⟨fun ho => next_commit_same hr' hl (tick_of_resting ho), fun ht hlim => ⟨?_, ?_⟩, fun ht hlim hb => ?_,
    fun ht hlim hb => ⟨fun hc => ?_, fun hc hlock => ?_, fun hc hrx htx he => ?_, fun hc hrx htx he => ?_, fun hc => ?_⟩,
    fun ht hlim => ?_, fun ht hlim => ⟨fun m hm ho => ?_, fun hm => ?_, ?_⟩, fun ht => ⟨fun hg => ?_, fun k hg hk => ?_⟩⟩
  · exact next_commit_reporting hr' hl (tick_of_timeout hl ht hlim) rfl
  · rw [← exec_sequencerTick hr h]
    exact tickChannel_due hr ((timesOut_iff ht).2 hlim)
  · exact next_commit_only hr' hl (tick_of_waiting ht hlim hb) rfl
  · exact next_commit_only hr' hl (tick_of_blanking ht hlim hb hc) rfl
  · exact next_commit_only hr' hl (tick_of_blankingEnd_unlocked ht hlim hb hc hlock) rfl
  · exact next_commit_only hr' hl ((tick_of_blankingEnd_locked hl ht hlim hb hc hrx htx).1 he) rfl
  · exact next_commit_reporting hr' hl ((tick_of_blankingEnd_locked hl ht hlim hb hc hrx htx).2 he) rfl
  · rw [← exec_sequencerTick hr h]
    exact tickChannel_due hr ((endsBlanking_iff ht hlim hb).2 hc)
  · exact next_commit_only hr' hl (tick_of_settled ht hlim) rfl
  · exact next_commit_only hr' hl (tick_of_expiry_open hl ht hlim hm ho) rfl
  · exact next_commit_reporting hr' hl (tick_of_expiry_closed hl ht hlim hm) rfl
  · rw [← exec_sequencerTick hr h]
    exact tickChannel_due hr ((endsSettling_iff ht).2 hlim)
  · exact next_commit_same hr' hl (tick_of_step ht hg)
  · exact next_commit_only hr' hl (tick_of_ramp ht hg hk) rfl

/-! ## Lock lines (R77) -/

section LockLine

variable {c : Chan} {side : Side} {asserted : Bool} {s : State}

theorem exec_lockLineChange_stopped (h : s.phase ≠ .running) : exec (.lockLineChange c side asserted) s = .next s :=
  congrArg Host.Outcome.next (whenRunning_not h)

theorem exec_lockLineChange_recorded (h : (s.channels.get c).lock side = asserted) :
    exec (.lockLineChange c side asserted) s = .next s := by
  simp only [exec, execLockLineChange, whenRunning, if_pos h, ite_self]

theorem exec_lockLineChange (hp : s.phase = .running) (h : (s.channels.get c).lock side ≠ asserted) :
    exec (.lockLineChange c side asserted) s
      = .next (s.commit c (((s.channels.get c).setLock side asserted).lockChanged s.params asserted)) :=
  congrArg Host.Outcome.next ((whenRunning_of hp).trans (if_neg h))

/-- With both levels asserted, the level just recorded is asserted. -/
theorem asserted_of_locked {r : Channel} (hrx : (r.setLock side asserted).lockRx = true)
    (htx : (r.setLock side asserted).lockTx = true) : asserted = true := by
  cases side
  · exact hrx
  · exact htx

variable {r : Channel} {p : SequencerParams}

theorem lockChanged_idle (h : r.state = .off ∨ r.state = .shutdown
      ∨ r.state = .tuning ∧ (r.subPhase ≠ some .waitingLock ∨ r.lockRx = false ∨ r.lockTx = false)
      ∨ r.state ≠ .tuning ∧ asserted = true) : r.lockChanged p asserted = r.only := by
  unfold Channel.lockChanged
  split
  case h_3 hs =>
    refine if_neg ?_
    rcases h with h | h | ⟨-, h | h | h⟩ | h <;> simp_all
  case h_1 | h_2 => rfl
  all_goals
    refine if_pos ?_
    simp_all

theorem lockChanged_locks (hs : r.state = .tuning) (hw : r.subPhase = some .waitingLock) (ha : asserted = true)
    (hrx : r.lockRx = true) (htx : r.lockTx = true) :
    r.lockChanged p asserted = r.enterSettling p.settleEpochs := by
  simp [Channel.lockChanged, hs, hw, ha, hrx, htx]

theorem lockChanged_loses
    (hs : r.state = .settling ∨ r.state = .onAir ∨ r.state = .squelched ∨ r.state = .foldback) (ha : asserted = false) :
    r.lockChanged p asserted = r.loseLock := by
  rcases hs with hs | hs | hs | hs <;> simp [Channel.lockChanged, hs, ha]

end LockLine

/-- Settles O40: a level not yet recorded acts on the record with it recorded, by the state. -/
theorem lockLineChangeActsByState : Obligations.LockLineChangeActsByState := by
  intro c side asserted s r hs hr
  refine ⟨exec_lockLineChange_stopped, exec_lockLineChange_recorded, fun hp hn => ?_⟩
  have hl := hs.records c
  have hlr : r.Lawful := hr ▸ setLock_lawful hl side asserted
  have hk : r.demandedGain = (s.channels.get c).demandedGain := hr ▸ setLock_demandedGain _ side asserted
  have ha : r.lockRx = true → r.lockTx = true → asserted = true := hr ▸ asserted_of_locked
  rw [exec_lockLineChange hp hn, ← hr]
  refine ⟨fun h => ?_, fun ht hw hrx htx => ⟨fun he => ?_, fun he => ?_⟩, fun h hd => ?_⟩
  · exact next_commit_only rfl hl (lockChanged_idle h) hk
  · exact next_commit_only rfl hl ((lockChanged_locks ht hw (ha hrx htx) hrx htx).trans
      (enterSettling_waits (tuning_holds hlr ht) he)) hk
  · exact next_commit_reporting rfl hl ((lockChanged_locks ht hw (ha hrx htx) hrx htx).trans
      (enterSettling_expires (tuning_holds hlr ht) he)) hk
  · exact next_commit_reporting rfl hl (lockChanged_loses h hd) hk

end Sys2Proof.Proofs.ChannelSequencer

/-! # Write completions and window results at a sequencer -/

namespace Sys2Proof.Proofs.ChannelSequencer

open Sys2Proof Sys2Proof.Machine Sys2Proof.Proofs.ChannelPlan

/-! ## Write completions (R75) -/

/-- A lawful record has a sub-phase in TUNING alone. -/
theorem tuning_of_subPhase {r : Channel} {x : SubPhase} (h : r.Lawful) (hx : r.subPhase = some x) :
    r.state = .tuning := by
  by_contra hs
  have hnone := (h.outsideTuning hs).1
  simp [hx] at hnone

section Completion

variable {r : Channel} {device : Device} {value : Nat}

/-- A completion of the gain stage, or of another word than the one demanded, marks nothing. -/
theorem markWritten_ignored (h : device = .gain ∨ device = .rxSyn ∧ value ≠ r.demandedRx
    ∨ device = .txSyn ∧ value ≠ r.demandedTx) : r.markWritten device value = r := by
  rcases h with rfl | ⟨rfl, hv⟩ | ⟨rfl, hv⟩
  · rfl
  · exact if_neg hv
  · exact if_neg hv

theorem completed_outsideWriting (h : r.subPhase ≠ some .writing) : r.completed device value = r :=
  if_neg fun hw => h hw.2

theorem completed_inWriting (h : r.Lawful) (hw : r.subPhase = some .writing) : r.completed device value =
    if (r.markWritten device value).rxWritten && (r.markWritten device value).txWritten then
      { r.markWritten device value with subPhase := some .blanking, blankingCount := 0 }
    else r.markWritten device value :=
  if_pos ⟨tuning_of_subPhase h hw, hw⟩

theorem completed_ignored (h : r.Lawful) (hn : r.subPhase ≠ some .writing ∨ device = .gain
      ∨ device = .rxSyn ∧ value ≠ r.demandedRx ∨ device = .txSyn ∧ value ≠ r.demandedTx) :
    r.completed device value = r := by
  by_cases hw : r.subPhase = some .writing
  · have hboth := h.writing hw
    rw [completed_inWriting h hw, markWritten_ignored (hn.resolve_left (not_not_intro hw)), if_neg (by simpa using hboth)]
  · exact completed_outsideWriting hw

theorem completed_rx (h : r.Lawful) (hw : r.subPhase = some .writing) (hv : value = r.demandedRx) :
    r.completed .rxSyn value =
      if r.txWritten then { r with rxWritten := true, subPhase := some .blanking, blankingCount := 0 }
      else { r with rxWritten := true } := by
  have hmark : r.markWritten .rxSyn value = { r with rxWritten := true } := if_pos hv
  rw [completed_inWriting h hw, hmark, Bool.true_and]

theorem completed_tx (h : r.Lawful) (hw : r.subPhase = some .writing) (hv : value = r.demandedTx) :
    r.completed .txSyn value =
      if r.rxWritten then { r with txWritten := true, subPhase := some .blanking, blankingCount := 0 }
      else { r with txWritten := true } := by
  have hmark : r.markWritten .txSyn value = { r with txWritten := true } := if_pos hv
  rw [completed_inWriting h hw, hmark, Bool.and_true]

end Completion

theorem exec_tuneWriteCompletion {c : Chan} {w : WriteRecord} {s s' : State} {r : Channel} (hr : r = s.channels.get c)
    (h : s.take (Message.isCompletion c) = some (.completion w, s')) :
    exec (.tuneWriteCompletion c) s = .next (s'.commit c (r.completed w.target.device w.value).only) := by
  simp only [exec, execTuneWriteCompletion, h, take_channel h, ← hr]

/-- Settles O41: a completion marks its side in WRITING, by the side and the word it brings. -/
theorem tuneWriteCompletionMarksSideWritten : Obligations.TuneWriteCompletionMarksSideWritten := by
  intro c w s s' r hs hr h
  have hl : r.Lawful := hr ▸ hs.records c
  have hr' : s'.channels.get c = r := (take_channel h c).trans hr.symm
  have hk := completed_demandedGain r w.target.device w.value
  rw [exec_tuneWriteCompletion hr h]
  refine ⟨fun hn => ?_, fun hw hd hv => ?_, fun hw hd hv => ?_⟩
  · exact next_commit_same hr' hl (congrArg Channel.only (completed_ignored hl hn))
  · rw [← completed_rx hl hw hv, ← hd]
    exact next_commit_only hr' hl rfl hk
  · rw [← completed_tx hl hw hv, ← hd]
    exact next_commit_only hr' hl rfl hk

/-! ## Window results (R79, R81 to R85, R116) -/

/-- A sequencer takes a window result of the quantity its command names. -/
theorem takeResult_due {c : Chan} {q : Quantity} {f : SequencerParams → Channel → WindowResult → SeqOutcome}
    {w : WindowResult} {s s' : State} {r : Channel} (hr : r = s.channels.get c) (hq : w.quantity = q)
    (h : s.take (Message.isResult c) = some (.result c w, s')) :
    takeResult c q f s = s'.commit c (f s.params r w) := by
  simp only [takeResult, h, if_pos hq, take_channel h, ← hr]
  obtain ⟨l, rfl⟩ := take_from h
  rfl

/-! ## RX results (R79, R81, R82) -/

section GoverningRx

variable {r : Channel} {m : Int}

theorem governingRx_resting (hs : r.state = .off ∨ r.state = .tuning ∨ r.state = .shutdown) :
    r.governingRx m = r.only := by
  rcases hs with hs | hs | hs <;> simp only [Channel.governingRx, hs]

theorem governingRx_settling (hs : r.state = .settling) :
    r.governingRx m = Channel.only { r with freshRx := true, settlingMean := some m } := by
  simp only [Channel.governingRx, hs]

theorem governingRx_onAir (hs : r.state = .onAir ∨ r.state = .foldback) : r.governingRx m =
    if m < r.entry.squelchClose ∧ r.entry.squelchHoldoff ≤ r.belowCount + 1 then r.enterSquelched
    else Channel.only { r with belowCount := r.nextBelow m } := by
  rcases hs with hs | hs <;> simp only [Channel.governingRx, hs]

theorem governingRx_above (hs : r.state = .onAir ∨ r.state = .foldback) (hm : r.entry.squelchClose ≤ m) :
    r.governingRx m = Channel.only { r with belowCount := 0 } := by
  rw [governingRx_onAir hs, if_neg fun hb => absurd hb.1 (not_lt.2 hm), Channel.nextBelow, if_neg (not_lt.2 hm)]

theorem governingRx_below (hs : r.state = .onAir ∨ r.state = .foldback) (hm : m < r.entry.squelchClose)
    (hb : r.belowCount + 1 < r.entry.squelchHoldoff) :
    r.governingRx m = Channel.only { r with belowCount := r.belowCount + 1 } := by
  rw [governingRx_onAir hs, if_neg fun hh => absurd hh.2 (not_le.2 hb), Channel.nextBelow, if_pos hm]

/-- The result that completes the holdoff closes the squelch (R81). -/
theorem governingRx_holdoff (h : r.Lawful) (hs : r.state = .onAir ∨ r.state = .foldback)
    (hm : m < r.entry.squelchClose) (hb : r.entry.squelchHoldoff ≤ r.belowCount + 1) :
    r.governingRx m = (Channel.only
      { r with state := .squelched, belowCount := 0, recoverCount := 0, fold := 0 }).reporting .squelchClosed := by
  have hns : r.state ≠ .settling := by rcases hs with hs | hs <;> simp [hs]
  obtain ⟨hsettle, hfresh⟩ := h.outsideSettling hns
  rw [governingRx_onAir hs, if_pos ⟨hm, hb⟩, Channel.enterSquelched]
  simp only [hsettle, hfresh, mean_outsideSettling h hns]

theorem governingRx_closed (hs : r.state = .squelched) (hm : m < r.entry.squelchOpen) : r.governingRx m = r.only := by
  simp only [Channel.governingRx, hs, if_neg (not_le.2 hm)]

/-- A result at or above squelch_open opens the squelch (R82). -/
theorem governingRx_opens (h : r.Lawful) (hs : r.state = .squelched) (hm : r.entry.squelchOpen ≤ m) :
    r.governingRx m = Channel.only
      { r with state := .onAir, gain := if r.entry.gainMode = .step then r.entry.gainTarget else r.gain } := by
  obtain ⟨hsettle, hfresh⟩ := h.outsideSettling (by simp [hs])
  have hmean := mean_outsideSettling h (by simp [hs])
  have hbelow := h.offAir (by simp [hs, ChannelState.carrier])
  have hrecover := h.outsideFoldback (by simp [hs])
  have hopen : r.governingRx m = r.enterOnAir := by simp only [Channel.governingRx, hs, if_pos hm]
  rw [hopen, Channel.enterOnAir]
  simp only [hsettle, hfresh, hmean, hbelow, hrecover]
  cases r.entry.gainMode <;> rfl

end GoverningRx

theorem governedBy_iff {c d : Chan} {r : Channel} : r.governedBy c d = true ↔ d = r.entry.squelchSource.getD c := by
  simp [Channel.governedBy]

theorem exec_rxResult_other {c : Chan} {w : WindowResult} {s s' : State} {r : Channel} (hr : r = s.channels.get c)
    (hq : w.quantity = .rx) (h : s.take (Message.isResult c) = some (.result c w, s'))
    (hg : w.channel ≠ r.entry.squelchSource.getD c) : exec (.rxResult c) s = .next (s'.commit c r.only) :=
  congrArg Host.Outcome.next ((takeResult_due hr hq h).trans
    (congrArg (State.commit c · s') (if_neg (mt governedBy_iff.1 hg))))

theorem exec_rxResult_governing {c : Chan} {w : WindowResult} {s s' : State} {r : Channel} (hr : r = s.channels.get c)
    (hq : w.quantity = .rx) (h : s.take (Message.isResult c) = some (.result c w, s'))
    (hg : w.channel = r.entry.squelchSource.getD c) :
    exec (.rxResult c) s = .next (s'.commit c (r.governingRx w.mean)) :=
  congrArg Host.Outcome.next ((takeResult_due hr hq h).trans
    (congrArg (State.commit c · s') (if_pos (governedBy_iff.2 hg))))

/-- Settles O42: a result of the governing channel acts by the state, any other not at all. -/
theorem rxResultGovernsSquelch : Obligations.RxResultGovernsSquelch := by
  intro c w s s' r hs hr hq h
  have hl : r.Lawful := hr ▸ hs.records c
  have hr' : s'.channels.get c = r := (take_channel h c).trans hr.symm
  refine ⟨fun hn => ?_, fun hg => ?_⟩
  · by_cases hg : w.channel = r.entry.squelchSource.getD c
    · rw [exec_rxResult_governing hr hq h hg]
      exact next_commit_same hr' hl (governingRx_resting (hn.resolve_left (not_not_intro hg)))
    · rw [exec_rxResult_other hr hq h hg]
      exact next_commit_same hr' hl rfl
  rw [exec_rxResult_governing hr hq h hg]
  refine ⟨fun ht => ?_, fun ht => ⟨fun hm => ?_, fun hm hb => ?_, fun hm hb => ?_⟩, fun ht hm => ?_, fun ht hm => ?_⟩
  · exact next_commit_only hr' hl (governingRx_settling ht) rfl
  · exact next_commit_only hr' hl (governingRx_above ht hm) rfl
  · exact next_commit_only hr' hl (governingRx_below ht hm hb) rfl
  · exact next_commit_reporting hr' hl (governingRx_holdoff hl ht hm hb) rfl
  · exact next_commit_same hr' hl (governingRx_closed ht hm)
  · exact next_commit_only hr' hl (governingRx_opens hl ht hm) rfl

/-! ## REFL results (R83, R84) -/

section Reflected

variable {r : Channel} {p : SequencerParams} {m : Int}

theorem reflected_offAir (h : r.state ≠ .onAir) (h' : r.state ≠ .foldback) : r.reflected p m = r.only := by
  unfold Channel.reflected
  split
  · exact absurd ‹_› h
  · exact absurd ‹_› h'
  all_goals rfl

theorem reflected_above (hs : r.state = .onAir ∨ r.state = .foldback) (hm : r.entry.reflLimit.getD p.reflLimit < m) :
    r.reflected p m = r.foldMore p := by
  rcases hs with hs | hs
  all_goals
    simp only [Channel.reflected, hs]
    exact if_pos hm

theorem reflected_onAir (hs : r.state = .onAir) (hm : m ≤ r.entry.reflLimit.getD p.reflLimit) :
    r.reflected p m = r.only := by
  simp only [Channel.reflected, hs]
  exact if_neg (not_lt.2 hm)

theorem reflected_foldback (hs : r.state = .foldback) (hm : m ≤ r.entry.reflLimit.getD p.reflLimit) :
    r.reflected p m = (r.recover p).only := by
  simp only [Channel.reflected, hs]
  exact if_neg (not_lt.2 hm)

theorem foldMore_shutdown (hg : r.gain ≤ r.fold + p.foldbackStep) : r.foldMore p =
    (Channel.only { r.cleared with state := .shutdown, subPhase := none }).reporting .reflShutdown :=
  if_pos hg

/-- The first fold from ON_AIR reports FOLDBACK_ENTERED, a further one nothing (R83). -/
theorem foldMore_folds (hg : r.fold + p.foldbackStep < r.gain) :
    (r.fold = 0 → r.foldMore p = (Channel.only
      { r with state := .foldback, fold := r.fold + p.foldbackStep, recoverCount := 0 }).reporting .foldbackEntered)
    ∧ (r.fold ≠ 0 → r.foldMore p = Channel.only
      { r with state := .foldback, fold := r.fold + p.foldbackStep, recoverCount := 0 }) := by
  rw [Channel.foldMore, if_neg (not_le.2 hg)]
  exact ⟨fun h => if_pos h, fun h => if_neg h⟩

theorem recover_counts (hn : r.recoverCount + 1 < p.recoverWindows) :
    r.recover p = { r with recoverCount := r.recoverCount + 1 } :=
  if_neg (not_le.2 hn)

/-- The recovery that brings F to 0 returns the channel to ON_AIR (R84). -/
theorem recover_unfolds (hn : p.recoverWindows ≤ r.recoverCount + 1) : r.recover p =
    { r with
      fold := r.fold - p.foldbackStep, recoverCount := 0
      state := if r.fold ≤ p.foldbackStep then .onAir else .foldback } := by
  rw [Channel.recover, if_pos hn]
  simp only [Nat.sub_eq_zero_iff_le]

end Reflected

/-! ## FWD results (R85) -/

section Forward

variable {r : Channel} {p : SequencerParams} {m : Int}

theorem carrier_iff {x : ChannelState} : x.carrier = true ↔ x = .onAir ∨ x = .foldback := by
  cases x <;> simp [ChannelState.carrier]

theorem forward_condition_iff : (r.state.carrier && decide (r.gain = r.entry.gainTarget) && decide (m < p.carrierFloor))
    = true ↔ (r.state = .onAir ∨ r.state = .foldback) ∧ r.gain = r.entry.gainTarget ∧ m < p.carrierFloor := by
  simp only [Bool.and_eq_true, carrier_iff, decide_eq_true_eq, and_assoc]

theorem forward_reports (h : (r.state = .onAir ∨ r.state = .foldback) ∧ r.gain = r.entry.gainTarget
    ∧ m < p.carrierFloor) : r.forward p m = r.only.reporting .noCarrier :=
  if_pos (forward_condition_iff.2 h)

theorem forward_ignored (h : r.state ≠ .onAir ∧ r.state ≠ .foldback ∨ r.gain ≠ r.entry.gainTarget
    ∨ p.carrierFloor ≤ m) : r.forward p m = r.only := by
  refine if_neg (mt forward_condition_iff.1 ?_)
  rintro ⟨hs, hg, hm⟩
  rcases h with h | h | h
  · exact hs.elim h.1 h.2
  · exact h hg
  · exact absurd hm (not_lt.2 h)

end Forward

/-- An event that leaves a lawful record as it is and demands nothing only sends its messages. -/
theorem afterEvent_same {c : Chan} {s : State} {r : Channel} {ms : List Message} (hr : s.channels.get c = r)
    (hl : r.Lawful) : s.afterEvent c r [] ms = { s with transit := s.transit ++ ms } := by
  subst hr
  have hput : put s.channels c (s.channels.get c).settled = s.channels := by rw [settled_self hl, put_self]
  have hwrites : ((if (s.channels.get c).gain - (s.channels.get c).fold = (s.channels.get c).demandedGain then []
      else [⟨⟨c, .gain⟩, (s.channels.get c).gain - (s.channels.get c).fold⟩]) ++ [] : List WriteRecord) = [] := by
    rw [if_pos hl.demanded.symm, List.append_nil]
  unfold State.afterEvent
  rw [hwrites]
  simp only [if_true, List.append_nil]
  exact congrArg (fun k => { s with channels := k, transit := s.transit ++ ms }) hput

/-- Settles O43: a REFL result by the state and the limit, a FWD result by the state, the gain and the floor. -/
theorem reflAndFwdResultsActOnAir : Obligations.ReflAndFwdResultsActOnAir := by
  intro c w s s' r hs hr h
  have hl : r.Lawful := hr ▸ hs.records c
  have hr' : s'.channels.get c = r := (take_channel h c).trans hr.symm
  refine ⟨fun hq => ?_, fun hq => ?_⟩
  · have hexec : exec (.reflResult c) s = .next (s'.commit c (r.reflected s.params w.mean)) :=
      congrArg Host.Outcome.next (takeResult_due hr hq h)
    rw [hexec]
    refine ⟨fun ho hf => ?_, fun ht hm => ⟨fun hg => ?_, fun hg => ?_⟩, fun ht hm => ?_,
      fun ht hm => ⟨fun hn => ?_, fun hn => ?_⟩⟩
    · exact next_commit_same hr' hl (reflected_offAir ho hf)
    · exact next_commit_reporting hr' hl ((reflected_above ht hm).trans (foldMore_shutdown hg)) rfl
    · obtain ⟨hfirst, hmore⟩ := foldMore_folds hg
      split
      · exact next_commit_reporting hr' hl ((reflected_above ht hm).trans (hfirst ‹_›)) rfl
      · exact next_commit_only hr' hl ((reflected_above ht hm).trans (hmore ‹_›)) rfl
    · exact next_commit_same hr' hl (reflected_onAir ht hm)
    · rw [reflected_foldback ht hm, recover_counts hn]
      exact next_commit_only hr' hl rfl rfl
    · rw [reflected_foldback ht hm, recover_unfolds hn]
      exact next_commit_only hr' hl rfl rfl
  · have hexec : exec (.fwdResult c) s = .next (s'.commit c (r.forward s.params w.mean)) :=
      congrArg Host.Outcome.next (takeResult_due hr hq h)
    rw [hexec]
    refine ⟨fun hn => ?_, fun hn => ?_⟩
    · rw [← afterEvent_same hr' hl]
      exact next_commit_reporting hr' hl (forward_reports hn) rfl
    · exact next_commit_same hr' hl (forward_ignored hn)

end Sys2Proof.Proofs.ChannelSequencer

/-! # Entry changes and RESTART CHANNEL at a sequencer -/

namespace Sys2Proof.Proofs.ChannelSequencer

open Sys2Proof Sys2Proof.Machine Sys2Proof.Proofs.ChannelPlan

/-! ## Events that demand both tune words (R72) -/

section Retunes

variable {c : Chan} {s : State} {r q : Channel} {o : SeqOutcome} {rx tx : Nat} (hr : s.channels.get c = r)
  (hl : r.Lawful)

include hr hl

/-- The end of an event at a lawful record that enters TUNING at WRITING. -/
theorem commit_retuning (ho : o = { record := q, retunes := true }) (hk : q.demandedGain = r.demandedGain)
    (hrx : q.demandedRx = rx) (htx : q.demandedTx = tx) :
    s.commit c o = s.afterEvent c q (tuneDemands c rx tx) [] := by
  subst hr ho hrx htx
  exact commit_eq hl hk

/-- The end of an event at a lawful record that enters OFF. -/
theorem commit_parking (ho : o = { record := q, retunes := true, wentOff := true })
    (hk : q.demandedGain = r.demandedGain) (hrx : q.demandedRx = rx) (htx : q.demandedTx = tx) :
    s.commit c o = s.afterEvent c q (tuneDemands c rx tx) [.offNotice c] := by
  subst hr ho hrx htx
  exact commit_eq hl hk

end Retunes

/-! ## An entry change by state, service and frequencies (R91 to R93) -/

section EntryChange

variable {r : Channel} {e : PlanEntry} {raster : Nat} {operate : Bool}

theorem sameFrequencies_iff {e' : PlanEntry} :
    e.sameFrequencies e' = true ↔ e.rxFreq = e'.rxFreq ∧ e.txFreq = e'.txFreq := by
  simp [PlanEntry.sameFrequencies]

theorem not_sameFrequencies {e' : PlanEntry} (h : e.rxFreq ≠ e'.rxFreq ∨ e.txFreq ≠ e'.txFreq) :
    ¬ e.sameFrequencies e' = true := by
  rw [sameFrequencies_iff, not_and_or]
  exact h

theorem not_outOfService (h : e.service = .inService) : ¬ e.service = .outOfService := by simp [h]

theorem entryChanged_of_off (hs : r.state = .off) : r.entryChanged raster operate e =
    if e.service = .inService ∧ operate then ({ r with entry := e } : Channel).enterTuning raster
    else Channel.only { r with entry := e } := by
  simp only [Channel.entryChanged, hs]

theorem entryChanged_of_shutdown (hs : r.state = .shutdown) : r.entryChanged raster operate e =
    if e.service = .outOfService then ({ r with entry := e } : Channel).enterOff
    else if e.sameFrequencies r.entry then (r.sameFrequencyChange e).only
    else Channel.only { r with entry := e } := by
  simp only [Channel.entryChanged, hs]

theorem entryChanged_of_on (ho : r.state ≠ .off) (hd : r.state ≠ .shutdown) : r.entryChanged raster operate e =
    if e.service = .outOfService then ({ r with entry := e } : Channel).enterOff
    else if e.sameFrequencies r.entry then (r.sameFrequencyChange e).only
    else ({ r with entry := e } : Channel).enterTuning raster := by
  unfold Channel.entryChanged
  split
  · exact absurd ‹_› ho
  · exact absurd ‹_› hd
  all_goals rfl

/-- In OFF an in-service entry begins TUNING in OPERATE (R91). -/
theorem entryChanged_starts (h : r.Lawful) (hs : r.state = .off) (hi : e.service = .inService)
    (hop : operate = true) : r.entryChanged raster operate e =
    { record := { r with
        entry := e, state := .tuning, subPhase := some .writing
        demandedRx := e.rxFreq / raster, demandedTx := e.txFreq / raster }
      retunes := true } := by
  have hcleared : ({ r with entry := e } : Channel).cleared = { r with entry := e } :=
    congrArg (fun q : Channel => { q with entry := e }) (cleared_of_off h hs)
  rw [entryChanged_of_off hs, if_pos ⟨hi, hop⟩, Channel.enterTuning, hcleared]

theorem entryChanged_stored (hs : r.state = .off) (hn : e.service = .outOfService ∨ operate = false) :
    r.entryChanged raster operate e = Channel.only { r with entry := e } := by
  rw [entryChanged_of_off hs, if_neg]
  rintro ⟨hi, hop⟩
  rcases hn with hn | hn
  · exact not_outOfService hi hn
  · simp [hop] at hn

/-- Out of service a channel that is not OFF enters OFF (R91). -/
theorem entryChanged_stops (hs : r.state ≠ .off) (hx : e.service = .outOfService) : r.entryChanged raster operate e =
    { record := { r.cleared with entry := e, state := .off, subPhase := none, demandedRx := 0, demandedTx := 0 }
      retunes := true
      wentOff := true } := by
  by_cases hd : r.state = .shutdown
  · rw [entryChanged_of_shutdown hd]
    exact if_pos hx
  · rw [entryChanged_of_on hs hd]
    exact if_pos hx

/-- Other frequencies restart or begin TUNING (R92). -/
theorem entryChanged_retunes (ho : r.state ≠ .off) (hd : r.state ≠ .shutdown) (hi : e.service = .inService)
    (hf : e.rxFreq ≠ r.entry.rxFreq ∨ e.txFreq ≠ r.entry.txFreq) : r.entryChanged raster operate e =
    { record := { r.cleared with
        entry := e, state := .tuning, subPhase := some .writing
        demandedRx := e.rxFreq / raster, demandedTx := e.txFreq / raster }
      retunes := true } := by
  rw [entryChanged_of_on ho hd, if_neg (not_outOfService hi), if_neg (not_sameFrequencies hf)]
  rfl

/-- The record after an in-service entry change with the same frequencies (R93). -/
theorem sameFrequencyChange_eq (h : r.Lawful) : r.sameFrequencyChange e =
    { r with
      entry := e
      gain :=
        if e.gainMode = .step ∧ (e.gainTarget ≠ r.entry.gainTarget ∨ e.gainMode ≠ r.entry.gainMode)
          ∧ (r.state = .onAir ∨ r.state = .foldback ∨ r.state = .squelched)
        then e.gainTarget else r.gain
      belowCount := if e.squelchSource = r.entry.squelchSource then r.belowCount else 0
      freshRx := if e.squelchSource = r.entry.squelchSource then r.freshRx else false
      settlingMean := if e.squelchSource = r.entry.squelchSource then r.settlingMean else none } := by
  by_cases hsource : e.squelchSource = r.entry.squelchSource
  · simp only [Channel.sameFrequencyChange, if_pos hsource]
    rfl
  · have hfresh : (if r.state = .settling then false else r.freshRx) = false := by
      split
      · rfl
      · exact (h.outsideSettling ‹_›).2
    have hmean : (if r.state = .settling then none else r.settlingMean) = none := by
      split
      · rfl
      · exact mean_outsideSettling h ‹_›
    simp only [Channel.sameFrequencyChange, if_neg hsource, hfresh, hmean]
    rfl

theorem entryChanged_keepsOn (h : r.Lawful) (ho : r.state ≠ .off) (hd : r.state ≠ .shutdown)
    (hi : e.service = .inService) (hrx : e.rxFreq = r.entry.rxFreq) (htx : e.txFreq = r.entry.txFreq) :
    r.entryChanged raster operate e = Channel.only
      { r with
        entry := e
        gain :=
          if e.gainMode = .step ∧ (e.gainTarget ≠ r.entry.gainTarget ∨ e.gainMode ≠ r.entry.gainMode)
            ∧ (r.state = .onAir ∨ r.state = .foldback ∨ r.state = .squelched)
          then e.gainTarget else r.gain
        belowCount := if e.squelchSource = r.entry.squelchSource then r.belowCount else 0
        freshRx := if e.squelchSource = r.entry.squelchSource then r.freshRx else false
        settlingMean := if e.squelchSource = r.entry.squelchSource then r.settlingMean else none } := by
  rw [entryChanged_of_on ho hd, if_neg (not_outOfService hi), if_pos (sameFrequencies_iff.2 ⟨hrx, htx⟩),
    sameFrequencyChange_eq h]

/-- In SHUTDOWN an in-service entry is stored, whatever its frequencies (R92, R93). -/
theorem entryChanged_inShutdown (h : r.Lawful) (hs : r.state = .shutdown) (hi : e.service = .inService) :
    r.entryChanged raster operate e = Channel.only { r with entry := e } := by
  have hfresh := (h.outsideSettling (by simp [hs])).2
  have hmean := mean_outsideSettling h (by simp [hs])
  have hbelow := h.offAir (by simp [hs, ChannelState.carrier])
  have hsame : r.sameFrequencyChange e = { r with entry := e } := by
    simp [sameFrequencyChange_eq h, hs, hfresh, hmean, hbelow]
  rw [entryChanged_of_shutdown hs, if_neg (not_outOfService hi), hsame, ite_self]

end EntryChange

theorem exec_entryChange {c : Chan} {e : PlanEntry} {s s' : State} {r : Channel} (hr : r = s.channels.get c)
    (h : s.take (Message.isEntryChange c) = some (.entryChange c e, s')) : exec (.entryChange c) s
      = .next (s'.commit c (r.entryChanged s.plan.raster (decide (s.mode.mode = .operate)) e)) := by
  simp only [exec, execEntryChange, h, take_channel h, ← hr]
  obtain ⟨l, rfl⟩ := take_from h
  rfl

/-- Settles O38: an entry change by the state, then the service, then the frequencies. -/
theorem entryChangeActsByStateAndFrequencies : Obligations.EntryChangeActsByStateAndFrequencies := by
  refine ⟨fun r => rfl, fun c e s s' r hs hr h => ?_⟩
  have hl : r.Lawful := hr ▸ hs.records c
  have hr' : s'.channels.get c = r := (take_channel h c).trans hr.symm
  rw [exec_entryChange hr h]
  refine ⟨fun ht hi hm => ?_, fun ht hn => ?_, fun ht hx => ?_, fun ht hd hi hf => ?_, fun ht hi => ?_,
    fun ht hd hi hrx htx => ?_⟩
  · exact congrArg Host.Outcome.next
      (commit_retuning hr' hl (entryChanged_starts hl ht hi (decide_eq_true hm)) rfl rfl rfl)
  · exact next_commit_only hr' hl (entryChanged_stored ht (hn.imp_right fun hm => by simp [hm])) rfl
  · exact congrArg Host.Outcome.next (commit_parking hr' hl (entryChanged_stops ht hx) rfl rfl rfl)
  · exact congrArg Host.Outcome.next (commit_retuning hr' hl (entryChanged_retunes ht hd hi hf) rfl rfl rfl)
  · exact next_commit_only hr' hl (entryChanged_inShutdown hl ht hi) rfl
  · exact next_commit_only hr' hl (entryChanged_keepsOn hl ht hd hi hrx htx) rfl

/-! ## RESTART CHANNEL (R88) -/

theorem channelOwner_none {b : Byte} (h : 8 ≤ b.toNat) : channelOwner b = .sequencerBlock := by
  rw [channelOwner, chanOf_none.2 h]

theorem channelOwner_some {b : Byte} {c : Chan} (h : b.toNat = c.val) : channelOwner b = .sequencer c := by
  rw [channelOwner, chanOf_eq_some.2 h]

/-- A request to restart no channel is refused by role, then for the channel (R88). -/
theorem exec_restartChannel_none {p : Port} {tag : Option Byte} {b : Byte} {s s' : State} (hb : 8 ≤ b.toNat)
    (h : Asked .sequencerBlock p tag (.restartChannel b) s s') : exec (.restartChannel p b) s
      = .next (s'.answer p tag (if s'.isHolder p then .plain .range .channel else .plain .role .none_)) := by
  have hreply := EpochTimebase.holderOnly_reply p (.plain .range .channel) s'
  rw [← channelOwner_none hb] at h
  exact congrArg Host.Outcome.next (serve_asked h (by
    simp only [ne_eq, not_true, if_false, chanOf_none.2 hb]
    exact congrArg some hreply))

theorem exec_restartChannel {p : Port} {tag : Option Byte} {b : Byte} {c : Chan} {s s' t : State} {x : Reply}
    (hb : b.toNat = c.val) (h : Asked (.sequencer c) p tag (.restartChannel b) s s')
    (hx : restartChannel p c s' = (x, t)) : exec (.restartChannel p b) s = .next (t.answer p tag x) := by
  rw [← channelOwner_some hb] at h
  exact congrArg Host.Outcome.next (serve_asked h (by
    simp only [ne_eq, not_true, if_false, chanOf_eq_some.2 hb, hx]))

section Restart

variable {p : Port} {c : Chan} {s : State}

theorem restartChannel_of_not (h : ¬ Holds s p) : restartChannel p c s = (.plain .role .none_, s) :=
  holderOnly_of_not h

theorem restartChannel_of_standby (h : Holds s p) (hm : s.mode.mode = .standby) :
    restartChannel p c s = (.plain .mode .none_, s) := by
  rw [restartChannel, holderOnly_of_holds h, if_pos hm]
  rfl

theorem restartChannel_of_other (h : Holds s p) (hm : s.mode.mode = .operate)
    (hs : (s.channels.get c).state ≠ .shutdown) :
    restartChannel p c s = (.refused .state .notShutdown (BitVec.ofNat 8 c.val), s) := by
  rw [restartChannel, holderOnly_of_holds h, if_neg (by simp [hm]), if_pos hs]

theorem restartChannel_of_line {n : Line} (h : Holds s p) (hm : s.mode.mode = .operate)
    (hs : (s.channels.get c).state = .shutdown) (hn : lowestChan (s.shutdownLine c) = some n) :
    restartChannel p c s = (.refused .faultPresent .lineShutdown (BitVec.ofNat 8 (67 + n.val)), s) := by
  rw [restartChannel, holderOnly_of_holds h, if_neg (by simp [hm]), if_neg (not_not_intro hs), hn]
  rfl

theorem restartChannel_of_passes (h : Holds s p) (hm : s.mode.mode = .operate)
    (hs : (s.channels.get c).state = .shutdown) (hn : lowestChan (s.shutdownLine c) = none) :
    restartChannel p c s = (.done [], s.commit c ((s.channels.get c).enterTuning s.plan.raster)) := by
  rw [restartChannel, holderOnly_of_holds h, if_neg (by simp [hm]), if_neg (not_not_intro hs), hn]

theorem shutdownLine_iff {n : Line} : s.shutdownLine c n = true ↔ (s.conditions.slots.get (lineSlot n)).latched = true
    ∧ (s.lines.get n).config.action = .shutdown ∧ (s.lines.get n).config.channels.getLsbD c.val = true := by
  simp [State.shutdownLine, and_assoc]

end Restart

/-- A lawful record in SHUTDOWN enters TUNING with the fields of the later stages as they are (R74, R86). -/
theorem enterTuning_of_shutdown {r : Channel} {raster : Nat} (h : r.Lawful) (hs : r.state = .shutdown) :
    r.enterTuning raster =
      { record := { r with
          state := .tuning, subPhase := some .writing
          demandedRx := r.entry.rxFreq / raster, demandedTx := r.entry.txFreq / raster }
        retunes := true } := by
  rw [Channel.enterTuning, cleared_of_shutdown h hs]

/-- RESTART CHANNEL of a channel, by its tests in order (R88). -/
theorem restartChannel_acts {p : Port} {tag : Option Byte} {b : Byte} {c : Chan} {s s' : State} {r : Channel}
    (hs : s.SequencersLawful) (hb : b.toNat = c.val) (hr : r = s.channels.get c)
    (h : Asked (.sequencer c) p tag (.restartChannel b) s s') :
    (¬ Holds s p → exec (.restartChannel p b) s = .next (s'.answer p tag (.plain .role .none_)))
    ∧ (Holds s p → s.mode.mode = .standby →
      exec (.restartChannel p b) s = .next (s'.answer p tag (.plain .mode .none_)))
    ∧ (Holds s p → s.mode.mode = .operate → r.state ≠ .shutdown →
      exec (.restartChannel p b) s = .next (s'.answer p tag (.refused .state .notShutdown b)))
    ∧ (∀ n : Line, Holds s p → s.mode.mode = .operate → r.state = .shutdown →
      (s.conditions.slots.get (lineSlot n)).latched = true → (s.lines.get n).config.action = .shutdown →
      (s.lines.get n).config.channels.getLsbD c.val = true →
      (∀ m < n, ¬ ((s.conditions.slots.get (lineSlot m)).latched = true
        ∧ (s.lines.get m).config.action = .shutdown
        ∧ (s.lines.get m).config.channels.getLsbD c.val = true)) →
      exec (.restartChannel p b) s
        = .next (s'.answer p tag (.refused .faultPresent .lineShutdown (BitVec.ofNat 8 (67 + n.val)))))
    ∧ (Holds s p → s.mode.mode = .operate → r.state = .shutdown →
      (∀ m, ¬ ((s.conditions.slots.get (lineSlot m)).latched = true ∧ (s.lines.get m).config.action = .shutdown
        ∧ (s.lines.get m).config.channels.getLsbD c.val = true)) →
      exec (.restartChannel p b) s = .next (State.answer p tag (.done []) (s'.afterEvent c
        { r with
          state := .tuning, subPhase := some .writing
          demandedRx := r.entry.rxFreq / s.plan.raster, demandedTx := r.entry.txFreq / s.plan.raster }
        (tuneDemands c (r.entry.rxFreq / s.plan.raster) (r.entry.txFreq / s.plan.raster)) []))) := by
  have hl : r.Lawful := hr ▸ hs.records c
  have hbyte : BitVec.ofNat 8 c.val = b := by rw [← hb, BitVec.ofNat_toNat, BitVec.setWidth_eq]
  have hr' : s'.channels.get c = r := (take_channel h c).trans hr.symm
  obtain ⟨l, rfl⟩ := asked_from h
  refine ⟨fun hh => ?_, fun hh hm => ?_, fun hh hm hd => ?_, fun n hh hm hd h1 h2 h3 hbelow => ?_,
    fun hh hm hd hnone => ?_⟩
  · exact exec_restartChannel hb h (restartChannel_of_not (s := s') hh)
  · exact exec_restartChannel hb h (restartChannel_of_standby (s := s') hh hm)
  · rw [← hr'] at hd
    have hx := exec_restartChannel hb h (restartChannel_of_other (s := s') hh hm hd)
    rwa [hbyte] at hx
  · rw [← hr'] at hd
    exact exec_restartChannel hb h (restartChannel_of_line (s := s') hh hm hd
      (Licence.lowestChan_of_first (shutdownLine_iff.2 ⟨h1, h2, h3⟩) fun m hmn =>
        Bool.eq_false_iff.2 (mt shutdownLine_iff.1 (hbelow m hmn))))
  · have hpass := restartChannel_of_passes (s := s') (c := c) hh hm (hr' ▸ hd)
      (lowestChan_none.2 fun m => Bool.eq_false_iff.2 (mt shutdownLine_iff.1 (hnone m)))
    rw [hr', commit_retuning hr' hl (enterTuning_of_shutdown hl hd) rfl rfl rfl] at hpass
    exact exec_restartChannel hb h hpass

/-! ## READ CHANNEL and the channel record of 24 bytes (R95, R184) -/

theorem exec_readChannel_none {p : Port} {tag : Option Byte} {b : Byte} {s s' : State} (hb : 8 ≤ b.toNat)
    (h : Asked .sequencerBlock p tag (.readChannel b) s s') :
    exec (.readChannel p b) s = .next (s'.answer p tag (.plain .range .channel)) := by
  rw [← channelOwner_none hb] at h
  exact congrArg Host.Outcome.next (serve_asked h (by
    simp only [ne_eq, not_true, if_false, chanOf_none.2 hb]
    rfl))

theorem exec_readChannel {p : Port} {tag : Option Byte} {b : Byte} {c : Chan} {s s' : State} (hb : b.toNat = c.val)
    (h : Asked (.sequencer c) p tag (.readChannel b) s s') : exec (.readChannel p b) s
      = .next (s'.answer p tag (.done (encodeChannel c (s'.channels.get c) (s'.gate c)))) := by
  rw [← channelOwner_some hb] at h
  exact congrArg Host.Outcome.next (serve_asked h (by
    simp only [ne_eq, not_true, if_false, chanOf_eq_some.2 hb]))

theorem gate_eq (s : State) (c : Chan) : s.gate c = decide (s.phase = .running ∧ s.mode.mode = .operate
    ∧ ((s.channels.get c).state = .onAir ∨ (s.channels.get c).state = .foldback)) := by
  rw [Bool.eq_iff_iff]
  simp only [State.gate, State.operateLevel, Bool.and_eq_true, decide_eq_true_eq, carrier_iff, and_assoc]

theorem flagByte_seven (a b c d e f g : Bool) : flagByte [a, b, c, d, e, f, g]
    = flag a 1 + flag b 2 + flag c 4 + flag d 8 + flag e 16 + flag f 32 + flag g 64 := by
  revert a b c d e f g
  decide

theorem channelState_byte (x : ChannelState) : x.code =
    match x with
    | .off => 0 | .tuning => 1 | .settling => 2 | .onAir => 3 | .squelched => 4 | .foldback => 5 | .shutdown => 6 := by
  cases x <;> rfl

theorem encodeChannel_eq (c : Chan) (r : Channel) (gate : Bool) : encodeChannel c r gate =
    [BitVec.ofNat 8 c.val, if r.entry.service = .inService then 1 else 0,
      (match r.state with
        | .off => 0 | .tuning => 1 | .settling => 2 | .onAir => 3 | .squelched => 4 | .foldback => 5 | .shutdown => 6),
      (match r.subPhase with | some .writing => 0 | some .blanking => 1 | some .waitingLock => 2 | none => 255),
      BitVec.ofNat 8 r.tuneCount, BitVec.ofNat 8 r.blankingCount, BitVec.ofNat 8 r.settleCount,
      BitVec.ofNat 8 r.belowCount, BitVec.ofNat 8 r.recoverCount,
      BitVec.ofNat 8 (flag r.freshRx 1 + flag r.settlingMean.isSome 2 + flag r.rxWritten 4 + flag r.txWritten 8
        + flag r.lockRx 16 + flag r.lockTx 32 + flag gate 64)]
      ++ level2 (r.settlingMean.getD 0) ++ word2 r.gain ++ word2 r.fold ++ word2 r.demandedGain
      ++ word3 r.demandedRx ++ word3 r.demandedTx := by
  unfold encodeChannel
  rw [service_byte, channelState_byte, flagByte_seven]
  simp only [natBytes_one, natBytes_two, natBytes_three, levelBytes_eq, List.append_assoc, List.cons_append,
    List.nil_append]
  rfl

/-- Settles O44: both requests by the channel named; RESTART CHANNEL by its tests, READ CHANNEL by the record's bytes. -/
theorem restartAndReadChannel : Obligations.RestartAndReadChannel := by
  intro p tag b s s' hs
  refine ⟨fun hb h => ?_, fun hb h => exec_readChannel_none hb h, fun c hb h => ?_,
    fun c r hb hr h => restartChannel_acts hs hb hr h, encodeChannel_eq⟩
  · rw [exec_restartChannel_none hb h]
    obtain ⟨l, rfl⟩ := asked_from h
    rfl
  · rw [exec_readChannel hb h, gate_eq]
    obtain ⟨l, rfl⟩ := asked_from h
    rfl

end Sys2Proof.Proofs.ChannelSequencer

/-! # The six site-wide sequencer parameters -/

namespace Sys2Proof.Proofs.ChannelSequencer

open Sys2Proof Sys2Proof.Machine Sys2Proof.Proofs.ChannelPlan

/-! ## CONFIGURE of a parameter (R70) -/

section Configure

variable {i : Item} {p : Port} {tag : Option Byte} {value : List Byte} {s s' : State}
  {set : SequencerParams → List Byte → Option SequencerParams} (h : Asked i.owner p tag (.configure i value) s s')

include h

theorem configureParams_refused (hh : ¬ Holds s p) :
    configureParams i p set s = s'.answer p tag (.plain .role .none_) := by
  obtain ⟨l, rfl⟩ := asked_from h
  exact configureItem_holderOnly (f := fun v s => setParams i v (set s.params v) s) h (holderOnly_of_not hh)

theorem configureParams_out (hh : Holds s p) (hx : set s.params value = none) :
    configureParams i p set s = s'.answer p tag (.plain .range .value) := by
  obtain ⟨l, rfl⟩ := asked_from h
  refine configureItem_holderOnly (f := fun v s => setParams i v (set s.params v) s) h
    ((holderOnly_of_holds (s := s') hh).trans ?_)
  show setParams i value (set s'.params value) s' = _
  rw [show set s'.params value = none from hx]
  rfl

theorem configureParams_sets (hh : Holds s p) {k : SequencerParams} (hx : set s.params value = some k) :
    configureParams i p set s = State.answer p tag (.done (i.code :: value)) { s' with params := k } := by
  obtain ⟨l, rfl⟩ := asked_from h
  refine configureItem_holderOnly (f := fun v s => setParams i v (set s.params v) s) h
    ((holderOnly_of_holds (s := s') hh).trans ?_)
  show setParams i value (set s'.params value) s' = _
  rw [show set s'.params value = some k from hx]
  rfl

/-- A command that sets a parameter within a range: role, then range, then the parameter set. -/
theorem exec_configure_within {cmd : Instr} {low high : Nat} {f : Nat → SequencerParams → SequencerParams}
    (hexec : exec cmd s = .next (configureParams i p (fun k v => within low high v fun n => f n k) s)) :
    (¬ Holds s p → exec cmd s = .next (s'.answer p tag (.plain .role .none_)))
    ∧ (Holds s p → beNat value < low ∨ high < beNat value →
      exec cmd s = .next (s'.answer p tag (.plain .range .value)))
    ∧ (Holds s p → low ≤ beNat value → beNat value ≤ high → exec cmd s
      = .next (State.answer p tag (.done (i.code :: value)) { s' with params := f (beNat value) s.params })) := by
  rw [hexec]
  refine ⟨fun hh => congrArg Host.Outcome.next (configureParams_refused h hh),
    fun hh hv => congrArg Host.Outcome.next (configureParams_out h hh ?_),
    fun hh hl hu => congrArg Host.Outcome.next (configureParams_sets h hh ?_)⟩
  · rw [within, if_neg (by omega)]
  · rw [within, if_pos ⟨hl, hu⟩]

/-- A command that sets a parameter to any level: role, then the parameter set. -/
theorem exec_configure_level {cmd : Instr} {f : Int → SequencerParams → SequencerParams}
    (hexec : exec cmd s = .next (configureParams i p (fun k v => some (f (levelOfNat (beNat v)) k)) s)) :
    (¬ Holds s p → exec cmd s = .next (s'.answer p tag (.plain .role .none_)))
    ∧ (Holds s p → exec cmd s = .next (State.answer p tag (.done (i.code :: value))
      { s' with params := f (levelOfNat (beNat value)) s.params })) := by
  rw [hexec]
  exact ⟨fun hh => congrArg Host.Outcome.next (configureParams_refused h hh),
    fun hh => congrArg Host.Outcome.next (configureParams_sets h hh rfl)⟩

end Configure

/-- The level two bytes spell is the two's complement value of their sixteen bits (R184). -/
theorem levelOfNat_two (hi lo : Byte) : levelOfNat (beNat [hi, lo]) = (hi ++ lo).toInt := by
  have hword : BitVec.ofNat 16 (beNat [hi, lo]) = hi ++ lo := by
    apply BitVec.eq_of_toNat_eq
    have hhi := hi.isLt
    have hlo := lo.isLt
    rw [beNat_two, BitVec.toNat_ofNat, BitVec.toNat_append, ← Nat.shiftLeft_add_eq_or_of_lt hlo, Nat.shiftLeft_eq]
    omega
  rw [levelOfNat, hword]

/-! ## READ CONFIG and the return to the defaults (R70, R97) -/

/-- A READ CONFIG of a parameter, asked: DONE with the item's code and value, to any port. -/
theorem readItem_param {i : Item} {p : Port} {tag : Option Byte} {s s' : State} {bytes : SequencerParams → List Byte}
    (h : Asked i.owner p tag (.readConfig i []) s s') :
    readItem i p (fun _ s => itemReply i (bytes s.params)) s = s'.answer p tag (.done (i.code :: bytes s.params)) := by
  rw [readItem_asked h]
  obtain ⟨l, rfl⟩ := asked_from h
  rfl

/-- Settles O45: each CONFIGURE by role and range, each READ CONFIG by its value, and the defaults at the notice. -/
theorem sequencerParametersConfigured : Obligations.SequencerParametersConfigured := by
  refine ⟨fun p tag s s' i cmd low high set v hi h => ?_, fun p tag s s' i cmd set hi lo hc h => ?_,
    fun p tag s s' i cmd bytes hi h => ?_, fun s s' h => ?_⟩
  · obtain ⟨howner, hexec⟩ : i.owner = .sequencerBlock ∧ exec cmd s
        = .next (configureParams i p (fun k v => within low high v fun n => set n k) s) := by
      rcases hi with ⟨rfl, rfl, rfl, rfl, rfl⟩ | ⟨rfl, rfl, rfl, rfl, rfl⟩ | ⟨rfl, rfl, rfl, rfl, rfl⟩
        | ⟨rfl, rfl, rfl, rfl, rfl⟩
      all_goals exact ⟨rfl, rfl⟩
    rw [← howner] at h
    simpa only [beNat_one] using exec_configure_within h hexec
  · obtain ⟨howner, hexec⟩ : i.owner = .sequencerBlock ∧ exec cmd s
        = .next (configureParams i p (fun k v => some (set (levelOfNat (beNat v)) k)) s) := by
      rcases hc with ⟨rfl, rfl, rfl⟩ | ⟨rfl, rfl, rfl⟩
      all_goals exact ⟨rfl, rfl⟩
    rw [← howner] at h
    simpa only [levelOfNat_two] using exec_configure_level h hexec
  · rcases hi with ⟨rfl, rfl, rfl⟩ | ⟨rfl, rfl, rfl⟩ | ⟨rfl, rfl, rfl⟩ | ⟨rfl, rfl, rfl⟩ | ⟨rfl, rfl, rfl⟩
      | ⟨rfl, rfl, rfl⟩
    · exact congrArg Host.Outcome.next (readItem_param (bytes := fun k => natBytes 1 k.tuneLimit) h)
    · exact congrArg Host.Outcome.next (readItem_param (bytes := fun k => natBytes 1 k.settleEpochs) h)
    · exact congrArg Host.Outcome.next (readItem_param (bytes := fun k => natBytes 1 k.foldbackStep) h)
    · exact congrArg Host.Outcome.next (readItem_param (bytes := fun k => natBytes 1 k.recoverWindows) h)
    · exact congrArg Host.Outcome.next (readItem_param (bytes := fun k => levelBytes k.reflLimit) h)
    · exact congrArg Host.Outcome.next (readItem_param (bytes := fun k => levelBytes k.carrierFloor) h)
  · exact congrArg Host.Outcome.next (takeInitNotice_some h)

end Sys2Proof.Proofs.ChannelSequencer

/-! # One record per target in the link's queue, and the timebase in range, through every step -/

namespace Sys2Proof.Proofs.RadioLink

open Sys2Proof Sys2Proof.Machine Sys2Proof.Proofs.ChannelPlan Sys2Proof.Proofs.EpochTimebase

/-! ## The targets in the queue (R99, R100) -/

/-- The targets of the queued records, head first. -/
def targets (q : List WriteRecord) : List Target := q.map WriteRecord.target

theorem lawful_iff {l : Link} : l.Lawful ↔ (targets l.queue).Nodup := Iff.rfl

theorem queued_iff {t : Target} {q : List WriteRecord} : queued t q = true ↔ t ∈ targets q := by
  simp [queued, targets]

/-- A replacement in place changes values alone. -/
theorem targets_replaceQueued (w : WriteRecord) (q : List WriteRecord) : targets (replaceQueued w q) = targets q := by
  rw [targets, replaceQueued, List.map_map]
  refine List.map_congr_left fun r _ => ?_
  rw [Function.comp_apply]
  split
  · exact Eq.symm ‹_›
  · rfl

/-- A demand adds its target where the queue does not hold it. -/
theorem demandInto_nodup {q : List WriteRecord} (w : WriteRecord) (h : (targets q).Nodup) :
    (targets (demandInto q w)).Nodup := by
  unfold demandInto
  split
  · rwa [targets_replaceQueued]
  · rename_i hw
    have hnew : w.target ∉ targets q := fun hm => hw (queued_iff.2 hm)
    rw [targets, List.map_append]
    exact List.Nodup.append h (List.nodup_singleton _) (List.disjoint_singleton.2 hnew)

theorem demands_nodup (ws : List WriteRecord) {q : List WriteRecord} (h : (targets q).Nodup) :
    (targets (ws.foldl demandInto q)).Nodup := by
  induction ws generalizing q with
  | nil => exact h
  | cons w ws ih => exact ih (demandInto_nodup w h)

/-! ## The link through its acts (R100 to R102, R107) -/

theorem startHead_lawful {l : Link} (h : l.Lawful) : l.startHead.Lawful := by
  unfold Link.startHead
  split
  · rename_i w q _ hq
    rw [lawful_iff, hq] at h
    exact h.of_cons
  · exact h

theorem demanded_lawful (ws : List WriteRecord) {l : Link} (h : l.Lawful) : (l.demanded ws).Lawful :=
  startHead_lawful (lawful_iff.2 (demands_nodup ws h))

theorem completed_lawful {l : Link} (h : l.Lawful) : l.completed.Lawful :=
  startHead_lawful (l := { l with inFlight := none }) h

/-- The 24 reset writes are for 24 targets (R107). -/
theorem resetWrites_nodup : (targets resetWrites).Nodup := by decide

theorem reset_keeps_linkLawful {c : Instr} {s t : State} (hr : blockOf c = .reset) (hs : s.link.Lawful)
    (h : exec c s = .next t) : t.link.Lawful := by
  rcases reset_cases hr h with ⟨phase, rfl⟩ | rfl | ⟨pins, rfl⟩
  · exact resetWrites_nodup
  · exact hs
  · exact startHead_lawful hs

theorem linkLawful_calm : Calm fun s => s.link.Lawful := ⟨fun _ _ h => h, fun _ _ h => h⟩

theorem link_keeps_linkLawful {c : Instr} {s t : State} (hc : blockOf c = .link) (hs : s.link.Lawful)
    (h : exec c s = .next t) : t.link.Lawful := by
  cases c <;> first | (cases hc; done) | skip
  case writeDemand c =>
    simp only [exec, execWriteDemand, Host.Outcome.next.injEq] at h
    subst h
    split
    · rename_i htake
      split
      · exact demanded_lawful _ (take_kept linkLawful_calm htake hs)
      · exact hs
    · exact hs
  case linkWriteComplete =>
    simp only [exec, execLinkWriteComplete, Host.Outcome.next.injEq] at h
    subst h
    split
    · exact completed_lawful hs
    · exact hs

theorem exec_keeps_linkLawful {c : Instr} {s t : State} (hs : s.link.Lawful) (h : exec c s = .next t) :
    t.link.Lawful := by
  by_cases hr : blockOf c = .reset
  · exact reset_keeps_linkLawful hr hs h
  by_cases hc : blockOf c = .link
  · exact link_keeps_linkLawful hc hs h
  · rwa [link_other h hr hc]

/-! ## The timebase through its acts (R39, R40, R43) -/

/-- A PRESCALE and a MODULO in range leave a period above position 0. -/
theorem lawful_of_ranges {prescale modulo : Nat} (k : Word16) (hp : prescale ∈ [1, 2, 4, 8, 16, 32, 64])
    (hm : 10 ≤ modulo ∧ modulo ≤ 65535) : (⟨prescale, modulo, 0, k⟩ : Timebase).Lawful where
  prescale := hp
  modulo := hm
  position := by
    have hpos : 0 < prescale := Nat.pos_of_ne_zero (by rintro rfl; simp at hp)
    have hmodulo : 0 < modulo := by omega
    exact Nat.mul_pos hpos hmodulo

theorem timebaseLawful_calm : Calm fun s => s.timebase.Lawful := ⟨fun _ _ h => h, fun _ _ h => h⟩

theorem endEpoch_timebaseLawful {s : State} (hs : s.timebase.Lawful) : s.endEpoch.timebase.Lawful :=
  lawful_of_ranges _ hs.prescale hs.modulo

theorem lastUnitPasses_timebaseLawful {s : State} (hs : s.timebase.Lawful) : s.lastUnitPasses.timebase.Lawful := by
  unfold State.lastUnitPasses
  split
  · exact hs
  · exact endEpoch_timebaseLawful hs

theorem setEpochPeriod_timebaseLawful {prescale modulo : Nat} {s : State} (hs : s.timebase.Lawful) :
    (setEpochPeriod prescale modulo s).2.timebase.Lawful := by
  by_cases hp : prescale ∈ [1, 2, 4, 8, 16, 32, 64]
  swap
  · rwa [setEpochPeriod_of_prescale hp]
  by_cases hm : 10 ≤ modulo ∧ modulo ≤ 65535
  · rw [setEpochPeriod_of_passes hp hm.1 hm.2]
    exact lawful_of_ranges _ hp hm
  · rwa [setEpochPeriod_of_modulo hp (by omega)]

theorem timebase_keeps_timebaseLawful {c : Instr} {s t : State} (hc : blockOf c = .timebase) (hs : s.timebase.Lawful)
    (h : exec c s = .next t) : t.timebase.Lawful := by
  cases c <;> first | (cases hc; done) | skip
  case epochEnd =>
    cases h
    refine whenRunning_kept (P := fun s => s.timebase.Lawful) (fun s hs => ?_) hs
    split
    · exact lastUnitPasses_timebaseLawful hs
    · exact hs
  case setEpoch p =>
    cases h
    refine serve_kept timebaseLawful_calm (fun body u r v hu hb => ?_) hs
    split at hb
    · obtain rfl := congrArg Prod.snd (Option.some.inj hb)
      exact holderOnly_kept (P := fun s => s.timebase.Lawful) (fun _ => setEpochPeriod_timebaseLawful) hu
    · cases hb

theorem reset_keeps_timebaseLawful {c : Instr} {s t : State} (hr : blockOf c = .reset) (hs : s.timebase.Lawful)
    (h : exec c s = .next t) : t.timebase.Lawful := by
  rcases reset_cases hr h with ⟨phase, rfl⟩ | rfl | ⟨pins, rfl⟩
  · exact timebaseAtReset_lawful
  · exact hs
  · exact hs

theorem exec_keeps_timebaseLawful {c : Instr} {s t : State} (hs : s.timebase.Lawful) (h : exec c s = .next t) :
    t.timebase.Lawful := by
  by_cases hr : blockOf c = .reset
  · exact reset_keeps_timebaseLawful hr hs h
  by_cases hc : blockOf c = .timebase
  · exact timebase_keeps_timebaseLawful hc hs h
  · rwa [timebase_other h hr hc]

/-! ## Every step -/

theorem step_keeps_linkLawful {s t : State} (hs : s.link.Lawful) (h : step s = .next t) : t.link.Lawful :=
  step_keeps (P := fun s => s.link.Lawful) (fun _ _ hs => hs) (fun _ hs _ => hs)
    (fun _ _ _ => exec_keeps_linkLawful) hs h

/-- A unit is counted only below the period (R39). -/
theorem step_keeps_timebaseLawful {s t : State} (hs : s.timebase.Lawful) (h : step s = .next t) : t.timebase.Lawful :=
  step_keeps (P := fun s => s.timebase.Lawful) (fun _ _ hs => hs)
    (fun _ hs hlt => ⟨hs.prescale, hs.modulo, hlt⟩) (fun _ _ _ => exec_keeps_timebaseLawful) hs h

/-- Settles O9: a demand replaces the record of its target or joins a queue without one, and the period changes by a
SET EPOCH that has passed its range checks, which starts the epoch anew. -/
theorem linkAndTimebaseLawsKeptByEveryStep : Obligations.LinkAndTimebaseLawsKeptByEveryStep :=
  fun _ _ h => ⟨fun hs => step_keeps_linkLawful hs h, fun hs => step_keeps_timebaseLawful hs h⟩

end Sys2Proof.Proofs.RadioLink

/-! # Demands, completions and the link lines -/

namespace Sys2Proof.Proofs.RadioLink

open Sys2Proof Sys2Proof.Machine Sys2Proof.Proofs.ChannelPlan

/-! ## Demands (R100, R101) -/

/-- Nothing starts while a write is in flight or nothing is queued. -/
theorem startHead_stays {l : Link} (h : l.inFlight ≠ none ∨ l.queue = []) : l.startHead = l := by
  unfold Link.startHead
  split
  · rename_i hi hq
    rcases h with h | h
    · exact absurd hi h
    · exact absurd (hq.symm.trans h) (List.cons_ne_nil _ _)
  · rfl

theorem take_link {key : Message → Bool} {m : Message} {s s' : State} (h : s.take key = some (m, s')) :
    s'.link = s.link :=
  take_quiet (F := State.link) ⟨fun _ _ => rfl, fun _ _ => rfl⟩ h

section Demands

variable {c d : Chan} {ws : List WriteRecord} {s s' : State}

theorem exec_writeDemand (h : s.take Message.isDemands = some (.demands c ws, s')) :
    exec (.writeDemand c) s
      = .next { s' with link := Link.startHead ⟨ws.foldl demandInto s.link.queue, s.link.inFlight⟩ } := by
  simp only [exec, execWriteDemand, h, if_true, take_link h, Link.demanded]

/-- The demands of a sequencer wait behind those of another (log entry 2). -/
theorem exec_writeDemand_waits (h : s.take Message.isDemands = some (.demands d ws, s')) (hd : d ≠ c) :
    exec (.writeDemand c) s = .next s := by
  simp only [exec, execWriteDemand, h, if_neg hd]

end Demands

/-! ## Completions (R102) -/

theorem exec_linkWriteComplete_idle {s : State} (h : s.link.inFlight = none) : exec .linkWriteComplete s = .next s := by
  simp only [exec, execLinkWriteComplete, h]

theorem exec_linkWriteComplete {s : State} {w : WriteRecord} (h : s.link.inFlight = some w) :
    exec .linkWriteComplete s = .next { s with
      link := Link.startHead ⟨s.link.queue, none⟩
      transit := s.transit ++ [.completion w] } := by
  simp only [exec, execLinkWriteComplete, h, Link.completed, State.send]

theorem isDemands_iff (x : Message) : x.isDemands = true ↔ ∃ d ws, x = .demands d ws := by
  cases x <;> simp [Message.isDemands]

theorem isCompletion_iff {c : Chan} (x : Message) :
    x.isCompletion c = true ↔ ∃ w : WriteRecord, w.target.channel = c ∧ x = .completion w := by
  cases x <;> simp [Message.isCompletion]

/-! ## The link lines (R103) -/

theorem wireBits_length (v : Nat) : (wireBits v).length = 24 := by simp [wireBits]

/-- The periods of a write that shift its bits out. -/
theorem transaction_shifts (w : WriteRecord) {k : Nat} (hk : k < 24) :
    w.transaction.getD k .rest = ⟨some w.target, true, w.value.testBit (23 - k)⟩ := by
  have hlen : k < ((wireBits w.value).map fun b => (⟨some w.target, true, b⟩ : LinkPeriod)).length := by
    rwa [List.length_map, wireBits_length]
  rw [WriteRecord.transaction, List.getD_append _ _ _ _ hlen, List.getD_eq_getElem _ _ hlen]
  simp [wireBits]

/-- After its bits a write leaves the lines at rest. -/
theorem transaction_rests (w : WriteRecord) {k : Nat} (hk : 24 ≤ k) : w.transaction.getD k .rest = .rest := by
  have hlen : ((wireBits w.value).map fun b => (⟨some w.target, true, b⟩ : LinkPeriod)).length ≤ k := by
    rwa [List.length_map, wireBits_length]
  rw [WriteRecord.transaction, List.getD_append_right _ _ _ _ hlen, List.getD_eq_getElem?_getD, List.getElem?_replicate]
  split
  · rfl
  · rfl

theorem lines_idle {l : Link} (h : l.inFlight = none) (k : Nat) : l.lines k = .rest := by
  simp only [Link.lines, h]

theorem lines_inFlight {l : Link} {w : WriteRecord} (h : l.inFlight = some w) (k : Nat) :
    l.lines k = w.transaction.getD k .rest := by
  simp only [Link.lines, h]

/-- Settles O46: the demands go into the queue one by one and the head starts where it can; a completion frees the link
and starts the next head; a write shifts its 24 bits out and rests. -/
theorem linkTakesDemandsAndCompletesWrites : Obligations.LinkTakesDemandsAndCompletesWrites := by
  refine ⟨fun c ws q s s' h hq => ?_,
    fun s => ⟨exec_linkWriteComplete_idle, fun w hi hq => ?_, fun w w' rest hi hq => ?_⟩,
    fun c d ws s s' h hd => exec_writeDemand_waits h hd,
    fun l k => ⟨fun h => lines_idle h k, fun w h => ?_⟩,
    fun c m s s' => ⟨take_iff isDemands_iff, take_iff isCompletion_iff⟩⟩
  · change q = ws.foldl demandInto s.link.queue at hq
    rw [exec_writeDemand h, ← hq]
    exact ⟨fun hstay => by rw [startHead_stays (l := ⟨q, _⟩) hstay],
      fun w rest hi hw => by rw [startHead_of_idle (l := ⟨q, _⟩) hi hw]⟩
  · rw [exec_linkWriteComplete hi, hq, startHead_stays (Or.inr rfl)]
  · rw [exec_linkWriteComplete hi, hq, startHead_of_idle rfl rfl]
  · rw [lines_inFlight h k]
    exact ⟨transaction_shifts w, transaction_rests w⟩

end Sys2Proof.Proofs.RadioLink

/-! # The bits of a sample word, accumulators and pairs -/

namespace Sys2Proof.Proofs.LevelMeasurement

open Sys2Proof Sys2Proof.Machine Sys2Proof.Proofs.ChannelPlan

/-! ## The bits of a word (R108) -/

theorem bitsNat_snoc (bits : List Bool) (b : Bool) : bitsNat (bits ++ [b]) = 2 * bitsNat bits + b.toNat := by
  simp [bitsNat]

theorem bitsNat_lt (bits : List Bool) : bitsNat bits < 2 ^ bits.length := by
  induction bits using List.reverseRecOn with
  | nil => simp [bitsNat]
  | append_singleton bits b ih =>
    have hb := b.toNat_lt
    rw [bitsNat_snoc, List.length_append, List.length_singleton, Nat.pow_succ]
    omega

theorem bitsOf_length (k n : Nat) : (bitsOf k n).length = k := by simp [bitsOf]

/-- The last bit sent is the lowest. -/
theorem bitsOf_succ (k n : Nat) : bitsOf (k + 1) n = bitsOf k (n / 2) ++ [n.testBit 0] := by
  rw [bitsOf, List.range_succ, List.map_append, List.map_singleton, Nat.add_sub_cancel, Nat.sub_self]
  refine congrArg (· ++ _) (List.map_congr_left fun i hi => ?_)
  have hplace : k - i = k - 1 - i + 1 := by
    have := List.mem_range.1 hi
    omega
  rw [hplace, Nat.testBit_succ]

/-- A number that k bits hold is spelt by the k bits that carry it. -/
theorem bitsNat_bitsOf {k n : Nat} (h : n < 2 ^ k) : bitsNat (bitsOf k n) = n := by
  induction k generalizing n with
  | zero =>
    rw [Nat.pow_zero] at h
    obtain rfl : n = 0 := by omega
    rfl
  | succ k ih =>
    have hhalf : n / 2 < 2 ^ k := by
      rw [Nat.pow_succ] at h
      omega
    rw [bitsOf_succ, bitsNat_snoc, ih hhalf, Nat.toNat_testBit, Nat.pow_zero, Nat.div_one]
    omega

theorem sampleOf_short {bits : List Bool} (h : bits.length < 24) : sampleOf bits = none := if_pos h

/-- The first 24 bits of a word are its tags and its code. -/
theorem sampleOf_word {ch q code : Nat} (extra : List Bool) (hch : ch < 16) (hq : q < 16) (hcode : code < 65536) :
    sampleOf (bitsOf 4 ch ++ bitsOf 4 q ++ bitsOf 16 code ++ extra) = some ⟨ch, q, code⟩ := by
  have htags : (bitsOf 4 ch ++ bitsOf 4 q).length = 8 := by rw [List.length_append, bitsOf_length, bitsOf_length]
  have hlong : ¬ (bitsOf 4 ch ++ bitsOf 4 q ++ bitsOf 16 code ++ extra).length < 24 := by
    rw [List.length_append, List.length_append, htags, bitsOf_length]
    omega
  have hchannel : (bitsOf 4 ch ++ bitsOf 4 q ++ bitsOf 16 code ++ extra).take 4 = bitsOf 4 ch := by
    rw [List.append_assoc, List.append_assoc]
    exact List.take_left' (bitsOf_length 4 ch)
  have hquantity : ((bitsOf 4 ch ++ bitsOf 4 q ++ bitsOf 16 code ++ extra).drop 4).take 4 = bitsOf 4 q := by
    rw [List.append_assoc, List.append_assoc, List.drop_left' (bitsOf_length 4 ch)]
    exact List.take_left' (bitsOf_length 4 q)
  have hbits : ((bitsOf 4 ch ++ bitsOf 4 q ++ bitsOf 16 code ++ extra).drop 8).take 16 = bitsOf 16 code := by
    rw [List.append_assoc, List.drop_left' htags]
    exact List.take_left' (bitsOf_length 16 code)
  rw [sampleOf, if_neg hlong, hchannel, hquantity, hbits, bitsNat_bitsOf hch, bitsNat_bitsOf hq, bitsNat_bitsOf hcode]

/-- Sixteen bits spell the code. -/
theorem sampleOf_code_lt {bits : List Bool} {x : Sample} (h : sampleOf bits = some x) : x.code < 65536 := by
  unfold sampleOf at h
  split at h
  · cases h
  · cases h
    exact (bitsNat_lt _).trans_le (Nat.pow_le_pow_right (by omega) (List.length_take_le 16 _))

/-- Conversion has no failing case (R111). -/
theorem level_isLevel (f : SampleFormat) {code : Nat} (h : code < 65536) : IsLevel (f.level code) := by
  cases f with
  | offsetBinary =>
    simp only [SampleFormat.level]
    omega
  | twosComplement =>
    simp only [SampleFormat.level]
    split <;> omega

theorem quantityOf_number (q : Quantity) : quantityOf q.number = some q := by cases q <;> rfl

theorem quantityOf_none : ∀ {n : Nat}, 3 ≤ n → quantityOf n = none
  | _ + 3, _ => rfl

/-! ## A level added (R113) -/

/-- A wrap leaves the true sum as it is. -/
theorem wrapSum_total (sum wraps : Int) :
    (wrapSum sum wraps).1 + (wrapSum sum wraps).2 * 16777216 = sum + wraps * 16777216 := by
  unfold wrapSum wrapSize
  split_ifs <;> dsimp only <;> omega

/-- One wrap brings back a sum that one level has moved. -/
theorem wrapSum_range {sum level : Int} (wraps : Int) (hs : -8388608 ≤ sum ∧ sum ≤ 8388607) (hl : IsLevel level) :
    -8388608 ≤ (wrapSum (sum + level) wraps).1 ∧ (wrapSum (sum + level) wraps).1 ≤ 8388607 := by
  unfold wrapSum wrapSize
  split_ifs <;> dsimp only <;> omega

section Add

variable {x : Accumulator} {level : Int}

theorem add_total :
    (x.add level).sum + (x.add level).wraps * 16777216 = x.sum + x.wraps * 16777216 + level :=
  (wrapSum_total _ _).trans (by omega)

theorem add_sum_range (hs : -8388608 ≤ x.sum ∧ x.sum ≤ 8388607) (hl : IsLevel level) :
    -8388608 ≤ (x.add level).sum ∧ (x.add level).sum ≤ 8388607 :=
  wrapSum_range _ hs hl

theorem lowerOf_eq (m : Option Int) : lowerOf m level = match m with | none => level | some x => min x level := by
  cases m with
  | none => rfl
  | some y =>
    simp only [lowerOf]
    split_ifs <;> omega

theorem upperOf_eq (m : Option Int) : upperOf m level = match m with | none => level | some x => max x level := by
  cases m with
  | none => rfl
  | some y =>
    simp only [upperOf]
    split_ifs <;> omega

/-- A level that does not complete the window leaves a lawful accumulator. -/
theorem add_lawful {window : Nat} (h : x.Lawful window) (hl : IsLevel level) (hn : (x.add level).count ≠ window) :
    (x.add level).Lawful window where
  count := by
    have hlt := h.count
    have hcount : (x.add level).count = x.count + 1 := rfl
    omega
  sum := add_sum_range h.sum hl
  empty h0 := absurd h0 (Nat.succ_ne_zero _)
  extremes _ := ⟨rfl, rfl⟩
  total := by
    have htotal := h.total
    have hcount : ((x.add level).count : Int) = x.count + 1 := rfl
    rw [add_total, hcount]
    omega

end Add

/-! ## The pair of a channel and a quantity (R112, R115) -/

theorem meters_get_set (m : Meters) (q r : Quantity) (x : Meter) :
    (m.set q x).get r = if q = r then x else m.get r := by
  cases q <;> cases r <;> rfl

theorem meter_setMeter (l : LevelMonitor) (c d : Chan) (q r : Quantity) (x : Meter) :
    (l.setMeter c q x).meter d r = if c = d ∧ q = r then x else l.meter d r := by
  rw [LevelMonitor.meter, LevelMonitor.setMeter, put_get]
  by_cases hc : c = d
  · subst hc
    rw [if_pos rfl, meters_get_set]
    simp only [true_and]
    rfl
  · rw [if_neg hc, if_neg fun h => hc h.1]
    rfl

/-- A channel measures nothing where it is OFF with its three accumulators empty (R124 step 4, log entry 35). -/
theorem measuring_false_iff {s : State} {c : Chan} : s.measuring c = false ↔
    (s.channels.get c).state = .off ∧ ∀ q, (s.level.meter c q).acc = Accumulator.empty := by
  have hmeters : (∀ q, (s.level.meter c q).acc = Accumulator.empty) ↔
      (s.level.meters.get c).rx.acc = Accumulator.empty ∧ (s.level.meters.get c).fwd.acc = Accumulator.empty
        ∧ (s.level.meters.get c).refl.acc = Accumulator.empty :=
    ⟨fun h => ⟨h .rx, h .fwd, h .refl⟩, fun ⟨hrx, hfwd, hrefl⟩ q => by cases q <;> assumption⟩
  rw [hmeters]
  simp [State.measuring, Accumulator.isEmpty, and_assoc]

end Sys2Proof.Proofs.LevelMeasurement

/-! # The Level Monitor's law through every step -/

namespace Sys2Proof.Proofs.LevelMeasurement

open Sys2Proof Sys2Proof.Machine Sys2Proof.Proofs.ChannelPlan

/-! ## What a word can do (R108 to R110) -/

theorem takeSample_of_none {bits : List Bool} (s : State) (h : sampleOf bits = none) :
    s.takeSample bits = s.report .sampleTagError := by
  simp only [State.takeSample, h]

theorem takeSample_of_badTag {bits : List Bool} {x : Sample} (s : State) (h : sampleOf bits = some x)
    (hx : 8 ≤ x.channel ∨ 3 ≤ x.quantity) : s.takeSample bits = s.report .sampleTagError := by
  simp only [State.takeSample, h]
  rcases hx with hx | hx
  · rw [chanOf_none.2 hx]
  · rw [quantityOf_none hx]
    split
    · rename_i hq
      cases hq
    · rfl

theorem takeSample_of_tags {bits : List Bool} {x : Sample} {c : Chan} {q : Quantity} (s : State)
    (h : sampleOf bits = some x) (hc : chanOf x.channel = some c) (hq : quantityOf x.quantity = some q) :
    s.takeSample bits = s.judgeSample c q x.code := by
  simp only [State.takeSample, h, hc, hq]

/-- Everything a word can do: it is reported, or it is a sample of some pair. -/
theorem takeSample_cases (bits : List Bool) (s : State) : s.takeSample bits = s.report .sampleTagError
    ∨ ∃ c q code, code < 65536 ∧ s.takeSample bits = s.judgeSample c q code := by
  cases h : sampleOf bits with
  | none => exact Or.inl (takeSample_of_none s h)
  | some x =>
    cases hc : chanOf x.channel with
    | none => exact Or.inl (takeSample_of_badTag s h (Or.inl (chanOf_none.1 hc)))
    | some c =>
      cases hq : quantityOf x.quantity with
      | none => exact Or.inl (by simp only [State.takeSample, h, hc, hq])
      | some q => exact Or.inr ⟨c, q, x.code, sampleOf_code_lt h, takeSample_of_tags s h hc hq⟩

/-! ## The law through the monitor's acts -/

theorem setMeter_lawful {l : LevelMonitor} {c : Chan} {q : Quantity} {x : Meter} (h : l.Lawful)
    (hx : x.acc.Lawful l.windowLength) : (l.setMeter c q x).Lawful where
  reports := h.reports
  window := h.window
  threshold := h.threshold
  meters d r := by
    rw [meter_setMeter]
    split
    · exact hx
    · exact h.meters d r

/-- A record joins the queue where it holds fewer than 48 (R119). -/
theorem offered_lawful {l : LevelMonitor} (w : WindowResult) (h : l.Lawful) : (l.offered w).Lawful := by
  unfold LevelMonitor.offered
  split
  · rename_i hlt
    refine ⟨?_, h.window, h.threshold, h.meters⟩
    rw [List.length_append, List.length_singleton]
    exact hlt
  · exact ⟨h.reports, h.window, h.threshold, h.meters⟩

theorem offer_lawful {s : State} (w : WindowResult) (hs : s.level.Lawful) : (s.offer w).level.Lawful := by
  unfold State.offer
  split
  · exact offered_lawful w hs
  · exact hs

/-- A completion empties the accumulator (R114). -/
theorem completeWindow_lawful {s : State} (w : WindowResult) (hs : s.level.Lawful) :
    (s.completeWindow w).level.Lawful :=
  offer_lawful w (setMeter_lawful hs (accumulatorEmpty_lawful hs.window.1))

theorem addLevel_lawful {s : State} (c : Chan) (q : Quantity) {level : Int} (hs : s.level.Lawful)
    (hl : IsLevel level) : (s.addLevel c q level).level.Lawful := by
  unfold State.addLevel
  dsimp only
  split
  · exact completeWindow_lawful _ hs
  · rename_i hn
    exact setMeter_lawful hs (add_lawful (hs.meters c q) hl hn)

theorem takeSample_lawful {s : State} (bits : List Bool) (hs : s.level.Lawful) :
    (s.takeSample bits).level.Lawful := by
  rcases takeSample_cases bits s with h | ⟨c, q, code, hcode, h⟩
  · rw [h]
    exact hs
  · rw [h, State.judgeSample]
    split
    · exact hs
    · exact addLevel_lawful c q hs (level_isLevel _ hcode)

theorem straddling_lawful {l : LevelMonitor} (b : Bool) (h : l.Lawful) :
    LevelMonitor.Lawful { l with straddling := b } :=
  ⟨h.reports, h.window, h.threshold, h.meters⟩

/-- The three pairs of a channel emptied (R117). -/
theorem emptied_meter (l : LevelMonitor) (c d : Chan) (q : Quantity) :
    LevelMonitor.meter { l with meters := put l.meters c Meters.empty } d q
      = if c = d then Meter.empty else l.meter d q := by
  rw [LevelMonitor.meter, put_get]
  split
  · cases q <;> rfl
  · rfl

theorem emptied_lawful {l : LevelMonitor} (c : Chan) (h : l.Lawful) :
    LevelMonitor.Lawful { l with meters := put l.meters c Meters.empty } where
  reports := h.reports
  window := h.window
  threshold := h.threshold
  meters d q := by
    rw [emptied_meter]
    split
    · exact accumulatorEmpty_lawful h.window.1
    · exact h.meters d q

theorem readReports_lawful {s : State} (n : Nat) (hs : s.level.Lawful) : (readReports n s).2.level.Lawful := by
  unfold readReports
  split
  · refine ⟨?_, hs.window, hs.threshold, hs.meters⟩
    rw [List.length_drop]
    exact (Nat.sub_le _ _).trans hs.reports
  · exact hs

theorem flushReports_lawful {s : State} (hs : s.level.Lawful) : (flushReports s).2.level.Lawful :=
  ⟨Nat.zero_le _, hs.window, hs.threshold, hs.meters⟩

/-- A window length or a sample format is set only where every accumulator is empty (R124). -/
theorem setMeasurement_lawful {i : Item} {value : List Byte} {set : Option LevelMonitor} {s : State}
    (hs : s.level.Lawful)
    (hset : ∀ l, set = some l → (∀ c q, (s.level.meter c q).acc = Accumulator.empty) → l.Lawful) :
    (setMeasurement i value set s).2.level.Lawful := by
  unfold setMeasurement
  split
  · exact hs
  split
  · exact hs
  split
  · exact hs
  · rename_i hnone
    exact hset _ rfl fun c => (measuring_false_iff.1 (lowestChan_none.1 hnone c)).2

theorem withWindowLength_lawful {l l' : LevelMonitor} {n : Nat} (h : l.Lawful) (hl : l.withWindowLength n = some l')
    (he : ∀ c q, (l.meter c q).acc = Accumulator.empty) : l'.Lawful := by
  unfold LevelMonitor.withWindowLength at hl
  split at hl
  · rename_i hn
    cases hl
    refine ⟨h.reports, hn, h.threshold, fun c q => ?_⟩
    rw [show LevelMonitor.meter { l with windowLength := n } c q = l.meter c q from rfl, he]
    exact accumulatorEmpty_lawful hn.1
  · cases hl

theorem withSampleFormat_lawful {l l' : LevelMonitor} {n : Nat} (h : l.Lawful) (hl : l.withSampleFormat n = some l') :
    l'.Lawful := by
  unfold LevelMonitor.withSampleFormat at hl
  split at hl
  · cases hl
    exact ⟨h.reports, h.window, h.threshold, h.meters⟩
  · cases hl
    exact ⟨h.reports, h.window, h.threshold, h.meters⟩
  · cases hl

theorem setReportThreshold_lawful {s : State} (value : List Byte) (hs : s.level.Lawful) :
    (setReportThreshold value s).2.level.Lawful := by
  unfold setReportThreshold
  split
  · rename_i hn
    exact ⟨hs.reports, hs.window, hn, hs.meters⟩
  · exact hs

/-! ## Every command and every step -/

/-- The state's Level Monitor keeps its law. -/
def LevelLawful (s : State) : Prop := s.level.Lawful

theorem levelLawful_calm : Calm LevelLawful := ⟨fun _ _ h => h, fun _ _ h => h⟩

theorem level_keeps_levelLawful {c : Instr} {s t : State} (hc : blockOf c = .level) (hs : LevelLawful s)
    (h : exec c s = .next t) : LevelLawful t := by
  cases c <;> first | (cases hc; done) | skip
  case sampleArrival bits =>
    cases h
    exact whenRunning_kept (P := LevelLawful) (fun s hs => takeSample_lawful _ (straddling_lawful false hs)) hs
  case offNotice c =>
    simp only [exec, execOffNotice, Host.Outcome.next.injEq] at h
    subst h
    split
    · rename_i htake
      exact emptied_lawful c (take_kept levelLawful_calm htake hs)
    · exact hs
  case levelMonitorInitialize =>
    cases h
    exact takeInitNotice_kept levelLawful_calm (fun s _ => straddling_lawful _ levelAtReset_lawful) hs
  case readReports p =>
    cases h
    refine serve_kept levelLawful_calm (fun body u r v hu hb => ?_) hs
    split at hb
    · obtain rfl := congrArg Prod.snd (Option.some.inj hb)
      exact readReports_lawful _ hu
    · cases hb
  case flushReports p =>
    cases h
    exact serveOnly_kept levelLawful_calm
      (fun s hs => holderOnly_kept (P := LevelLawful) (fun s hs => flushReports_lawful hs) hs) hs
  case configureWindowLength p =>
    cases h
    exact configureItem_kept levelLawful_calm (fun v s hs => holderOnly_kept (P := LevelLawful)
      (fun s hs => setMeasurement_lawful hs fun l => withWindowLength_lawful hs) hs) hs
  case configureSampleFormat p =>
    cases h
    exact configureItem_kept levelLawful_calm (fun v s hs => holderOnly_kept (P := LevelLawful)
      (fun s hs => setMeasurement_lawful hs fun l hl _ => withSampleFormat_lawful hs hl) hs) hs
  case configureReportSelect p =>
    cases h
    exact configureItem_kept levelLawful_calm (fun v s hs => holderOnly_kept (P := LevelLawful)
      (fun s hs => ⟨hs.reports, hs.window, hs.threshold, hs.meters⟩) hs) hs
  case configureReportThreshold p =>
    cases h
    exact configureItem_kept levelLawful_calm (fun v s hs => holderOnly_kept (P := LevelLawful)
      (fun s hs => setReportThreshold_lawful v hs) hs) hs

theorem reset_keeps_levelLawful {c : Instr} {s t : State} (hr : blockOf c = .reset) (hs : LevelLawful s)
    (h : exec c s = .next t) : LevelLawful t := by
  rcases reset_cases hr h with ⟨phase, rfl⟩ | rfl | ⟨pins, rfl⟩
  · exact levelAtReset_lawful
  · exact hs
  · exact straddling_lawful _ hs

theorem exec_keeps_levelLawful {c : Instr} {s t : State} (hs : LevelLawful s) (h : exec c s = .next t) :
    LevelLawful t := by
  by_cases hr : blockOf c = .reset
  · exact reset_keeps_levelLawful hr hs h
  by_cases hc : blockOf c = .level
  · exact level_keeps_levelLawful hc hs h
  · rwa [LevelLawful, level_other h hr hc]

/-- Settles O10: a level keeps the sum in 24 bits by at most one wrap and stays below the window or empties the
accumulator, a record joins only a queue below 48, and the items are set within their ranges with nothing measuring. -/
theorem levelMonitorLawKeptByEveryStep : Obligations.LevelMonitorLawKeptByEveryStep := by
  intro s t hs h
  exact step_keeps (P := LevelLawful) (fun _ _ hs => hs) (fun _ hs _ => hs) (fun _ _ _ => exec_keeps_levelLawful) hs h

end Sys2Proof.Proofs.LevelMeasurement

/-! # A word of the Sample Port, a window completed, its deliveries and its report -/

namespace Sys2Proof.Proofs.LevelMeasurement

open Sys2Proof Sys2Proof.Machine Sys2Proof.Proofs.ChannelPlan

/-! ## The bits of a word that count (R125, log entry 18) -/

section Word

variable {bits : WordBits} {s : State}

theorem exec_sampleArrival_stopped (h : s.phase ≠ .running) : exec (.sampleArrival bits) s = .next s :=
  congrArg Host.Outcome.next (whenRunning_not h)

theorem exec_sampleArrival_running (h : s.phase = .running) :
    exec (.sampleArrival bits) s = .next (s.wordEnded.takeSample (s.level.counted bits)) :=
  congrArg Host.Outcome.next (whenRunning_of h)

theorem counted_whole (h : s.level.straddling = false) : s.level.counted bits = bits.before ++ bits.after := by
  rw [LevelMonitor.counted, h]
  rfl

theorem counted_straddling (h : s.level.straddling = true) : s.level.counted bits = bits.after := if_pos h

/-- A word begun after the end of the last reset counts whole. -/
theorem exec_sampleArrival_whole (hp : s.phase = .running) (hs : s.level.straddling = false) :
    exec (.sampleArrival bits) s = .next (s.takeSample (bits.before ++ bits.after)) := by
  rw [exec_sampleArrival_running hp, counted_whole hs, State.wordEnded_of hs]

theorem exec_sampleArrival_word {word : List Bool} (hp : s.phase = .running) (hs : s.level.straddling = false) :
    exec (.sampleArrival ⟨[], word⟩) s = .next (s.takeSample word) :=
  exec_sampleArrival_whole hp hs

/-- Where no word straddles, it does not matter which bits came before the end of a reset. -/
theorem exec_sampleArrival_joined (before after : List Bool) (hs : s.level.straddling = false) :
    exec (.sampleArrival ⟨before, after⟩) s = exec (.sampleArrival ⟨[], before ++ after⟩) s := by
  by_cases hp : s.phase = .running
  · rw [exec_sampleArrival_whole hp hs, exec_sampleArrival_whole hp hs]
    rfl
  · rw [exec_sampleArrival_stopped hp, exec_sampleArrival_stopped hp]

/-- Of a word that straddles the end of a reset the bits after the end count, as of a word that began there. -/
theorem exec_sampleArrival_straddling (before after : List Bool) (hp : s.phase = .running)
    (hs : s.level.straddling = true) :
    exec (.sampleArrival ⟨before, after⟩) s = exec (.sampleArrival ⟨[], after⟩) s.wordEnded := by
  rw [exec_sampleArrival_running hp, counted_straddling hs]
  exact (exec_sampleArrival_word (s := s.wordEnded) hp rfl).symm

end Word

/-! ## A sample by its channel's state (R110, R113) -/

section Sample

variable {c : Chan} {q : Quantity} {s : State}

theorem judgeSample_of_off (code : Nat) (h : (s.channels.get c).state = .off) : s.judgeSample c q code = s := if_pos h

theorem judgeSample_of_on (code : Nat) (h : (s.channels.get c).state ≠ .off) :
    s.judgeSample c q code = s.addLevel c q (s.level.sampleFormat.level code) := if_neg h

theorem addLevel_fills {level : Int} {x : Accumulator} (hx : x = (s.level.meter c q).acc.add level)
    (hn : x.count ≠ s.level.windowLength) :
    s.addLevel c q level = { s with level := s.level.setMeter c q { s.level.meter c q with acc := x } } := by
  subst hx
  exact if_neg hn

theorem addLevel_completes {level : Int} {x : Accumulator} (hx : x = (s.level.meter c q).acc.add level)
    (hn : x.count = s.level.windowLength) :
    s.addLevel c q level = s.completeWindow (x.result c q s.timebase.counter) := by
  subst hx
  exact if_pos hn

end Sample

/-! ## A window completed (R114, R116, R119) -/

theorem offered_of_room {l : LevelMonitor} (w : WindowResult) (h : l.reports.length < 48) :
    l.offered w = { l with reports := l.reports ++ [w.toReport l.lossMark], lossMark := false } := if_pos h

theorem offered_of_full {l : LevelMonitor} (w : WindowResult) (h : 48 ≤ l.reports.length) :
    l.offered w = { l with lossMark := true } := if_neg (Nat.not_lt.2 h)

/-- An offer changes the queue and the loss mark alone. -/
theorem offered_frame (l : LevelMonitor) (w : WindowResult) :
    l.offered w = { l with reports := (l.offered w).reports, lossMark := (l.offered w).lossMark } := by
  by_cases h : l.reports.length < 48
  · rw [offered_of_room w h]
  · rw [offered_of_full w (Nat.not_lt.1 h)]

/-- The occurrences an offer sends to the Condition Table (R119). -/
def offerOccurrences (l : LevelMonitor) : List Message := l.offerReports.map fun k => .occurrence k.slot

theorem offerOccurrences_of_room {l : LevelMonitor} (h : l.reports.length < 48) : offerOccurrences l =
    if l.reports.length + 1 = l.reportThreshold then [.occurrence SiteKind.reportsWaiting.slot] else [] := by
  have hreports : l.offerReports = if l.reports.length + 1 = l.reportThreshold then [.reportsWaiting] else [] := if_pos h
  rw [offerOccurrences, hreports]
  split_ifs <;> rfl

theorem offerOccurrences_of_full {l : LevelMonitor} (h : 48 ≤ l.reports.length) :
    offerOccurrences l = [.occurrence SiteKind.reportOverflow.slot] := by
  have hreports : l.offerReports = [.reportOverflow] := if_neg (Nat.not_lt.2 h)
  rw [offerOccurrences, hreports]
  rfl

/-- The monitor after steps 1 and 2 of a completion: the result the latest of its pair, the accumulator empty (R114). -/
def completed (l : LevelMonitor) (w : WindowResult) : LevelMonitor :=
  l.setMeter w.channel w.quantity ⟨Accumulator.empty, some w⟩

section Completion

variable {s : State} {w : WindowResult}

theorem completeWindow_unselected (h : s.level.selects w.channel w.quantity = false) :
    s.completeWindow w = { s with level := completed s.level w, transit := s.transit ++ s.deliveries w } :=
  if_neg ((Bool.eq_false_iff.1 h) ·)

theorem completeWindow_selected (h : s.level.selects w.channel w.quantity = true) :
    s.completeWindow w = { s with
      level := (completed s.level w).offered w
      transit := s.transit ++ s.deliveries w ++ offerOccurrences (completed s.level w) } :=
  if_pos h

/-- A selected pair offers its result to the queue (R114 step 4, R119). -/
theorem completeWindow_offers (h : s.level.selects w.channel w.quantity = true) :
    s.completeWindow w = { s with level := (s.completeWindow w).level, transit := (s.completeWindow w).transit }
    ∧ (s.completeWindow w).level = { completed s.level w with
        reports := (s.completeWindow w).level.reports, lossMark := (s.completeWindow w).level.lossMark }
    ∧ (s.level.reports.length < 48 →
      (s.completeWindow w).level.reports = s.level.reports ++ [w.toReport s.level.lossMark]
      ∧ (s.completeWindow w).level.lossMark = false
      ∧ (s.completeWindow w).transit = s.transit ++ s.deliveries w
        ++ (if s.level.reports.length + 1 = s.level.reportThreshold
          then [.occurrence SiteKind.reportsWaiting.slot] else []))
    ∧ (48 ≤ s.level.reports.length →
      (s.completeWindow w).level.reports = s.level.reports ∧ (s.completeWindow w).level.lossMark = true
      ∧ (s.completeWindow w).transit = s.transit ++ s.deliveries w
        ++ [.occurrence SiteKind.reportOverflow.slot]) := by
  rw [completeWindow_selected h]
  refine ⟨rfl, offered_frame _ w, fun hroom => ?_, fun hfull => ?_⟩
  · have hroom' : (completed s.level w).reports.length < 48 := hroom
    rw [offered_of_room w hroom', offerOccurrences_of_room hroom']
    exact ⟨rfl, rfl, rfl⟩
  · have hfull' : 48 ≤ (completed s.level w).reports.length := hfull
    rw [offered_of_full w hfull', offerOccurrences_of_full hfull']
    exact ⟨rfl, rfl, rfl⟩

end Completion

/-! ## Deliveries (R116) -/

theorem receives_iff {s : State} {w : WindowResult} {c : Chan} : s.receives w c = true ↔
    c = w.channel ∨ w.quantity = .rx ∧ (s.channels.get c).entry.squelchSource = some w.channel := by
  simp [State.receives]

theorem mem_deliveries {s : State} {w : WindowResult} {m : Message} :
    m ∈ s.deliveries w ↔ ∃ c, s.receives w c = true ∧ Message.result c w = m := by
  simp [State.deliveries]

theorem deliveries_nodup (s : State) (w : WindowResult) : (s.deliveries w).Nodup :=
  ((List.nodup_finRange 8).filter _).map fun _ _ h => (Message.result.inj h).1

theorem result_mem_deliveries {s : State} {w : WindowResult} {c : Chan} : Message.result c w ∈ s.deliveries w ↔
    c = w.channel ∨ w.quantity = .rx ∧ (s.channels.get c).entry.squelchSource = some w.channel := by
  rw [mem_deliveries, ← receives_iff]
  constructor
  · rintro ⟨d, hd, hm⟩
    obtain ⟨rfl, -⟩ := Message.result.inj hm
    exact hd
  · exact fun h => ⟨c, h, rfl⟩

theorem isResult_iff {c : Chan} (x : Message) : x.isResult c = true ↔ ∃ w, x = .result c w := by
  cases x <;> simp [Message.isResult]

/-! ## The result and the arrival (R108 to R114) -/

theorem result_eq {c : Chan} {q : Quantity} {stamp : Word16} {x : Accumulator} {low high : Int}
    (hlow : x.min = some low) (hhigh : x.max = some high) : x.result c q stamp
      = ⟨c, q, stamp, x.count, (x.sum + x.wraps * 16777216).tdiv x.count, low, high, x.sum, x.wraps⟩ := by
  rw [Accumulator.result, hlow, hhigh]
  rfl

/-- A whole word with valid tags is a sample of the pair they name. -/
theorem exec_sampleArrival_sample {s : State} {c : Chan} {q : Quantity} {code : Nat} (extra : List Bool)
    (hp : s.phase = .running) (hs : s.level.straddling = false) (hcode : code < 65536) :
    exec (.sampleArrival ⟨[], bitsOf 4 c.val ++ bitsOf 4 q.number ++ bitsOf 16 code ++ extra⟩) s
      = .next (s.judgeSample c q code) := by
  have hc : c.val < 16 := by omega
  have hq : q.number < 16 := by cases q <;> decide
  rw [exec_sampleArrival_word hp hs, takeSample_of_tags (x := ⟨c.val, q.number, code⟩) s
    (sampleOf_word extra hc hq hcode) (chanOf_val c) (quantityOf_number q)]

/-- A sample of a channel that is not OFF is converted and added. -/
theorem exec_sampleArrival_level {s : State} {c : Chan} {q : Quantity} {code : Nat} (extra : List Bool)
    (hp : s.phase = .running) (hs : s.level.straddling = false) (hcode : code < 65536)
    (hon : (s.channels.get c).state ≠ .off) :
    exec (.sampleArrival ⟨[], bitsOf 4 c.val ++ bitsOf 4 q.number ++ bitsOf 16 code ++ extra⟩) s
      = .next (s.addLevel c q (s.level.sampleFormat.level code)) := by
  rw [exec_sampleArrival_sample extra hp hs hcode, judgeSample_of_on code hon]

/-- Settles O47: a word by its length, its tags and its channel's state; a level added by the window length, the selection
and the room in the queue. -/
theorem sampleArrivalFillsAccumulatorAndCompletesWindow :
    Obligations.SampleArrivalFillsAccumulatorAndCompletesWindow := by
  refine ⟨fun bits s hp hs hshort => ?_, fun ch q code extra s hp hs hch hq hcode => ⟨fun htags => ?_, ?_⟩,
    fun level x hl hu hlow hhigh => ?_,
    fun s w => ⟨fun c => result_mem_deliveries, fun m hm => ?_, deliveries_nodup s w⟩,
    fun c m s s' => take_iff isResult_iff, fun l c k => by cases k <;> rfl, rfl,
    fun c k stamp x low high => result_eq, fun w loss => rfl,
    fun before after s => ⟨exec_sampleArrival_joined before after, exec_sampleArrival_straddling before after,
      exec_sampleArrival_stopped⟩⟩
  · rw [exec_sampleArrival_word hp hs, takeSample_of_none s (sampleOf_short hshort)]
    rfl
  · rw [exec_sampleArrival_word hp hs, takeSample_of_badTag s (sampleOf_word extra hch hq hcode) htags]
    rfl
  · rintro c k rfl rfl
    refine ⟨fun hoff => ?_, fun level x hlevel hx hon => ?_⟩
    · rw [exec_sampleArrival_sample extra hp hs hcode, judgeSample_of_off code hoff]
    · have hlevel : level = s.level.sampleFormat.level code := hlevel
      rw [exec_sampleArrival_level extra hp hs hcode hon, ← hlevel]
      refine ⟨fun hn => ?_, fun hn hsel => ?_, fun hn hsel => ?_⟩
      · rw [addLevel_fills hx hn]
      · rw [addLevel_completes hx hn, completeWindow_unselected hsel]
        rfl
      · rw [addLevel_completes hx hn]
        exact ⟨_, rfl, completeWindow_offers (w := x.result c k s.timebase.counter) hsel⟩
  · obtain ⟨hmin, hmax⟩ := add_sum_range (x := x) ⟨hlow, hhigh⟩ ⟨hl, hu⟩
    exact ⟨rfl, add_total, hmin, hmax, congrArg some (lowerOf_eq x.min), congrArg some (upperOf_eq x.max)⟩
  · obtain ⟨c, -, rfl⟩ := mem_deliveries.1 hm
    exact ⟨c, rfl⟩

end Sys2Proof.Proofs.LevelMeasurement

/-! # The OFF notice, the report queue and the reset values of the Level Monitor -/

namespace Sys2Proof.Proofs.LevelMeasurement

open Sys2Proof Sys2Proof.Machine Sys2Proof.Proofs.ChannelPlan Sys2Proof.Proofs.Licence

/-! ## The OFF notice (R117) -/

theorem isOffNotice_iff {c : Chan} (x : Message) : x.isOffNotice c = true ↔ x = .offNotice c := by
  cases x <;> simp [Message.isOffNotice]

theorem exec_offNotice {c : Chan} {m : Message} {s s' : State} (h : s.take (Message.isOffNotice c) = some (m, s')) :
    exec (.offNotice c) s
      = .next { s' with level := { s'.level with meters := put s'.level.meters c Meters.empty } } := by
  simp only [exec, execOffNotice, h]

theorem emptied_meter_same (l : LevelMonitor) (c : Chan) (q : Quantity) :
    LevelMonitor.meter { l with meters := put l.meters c Meters.empty } c q = Meter.empty := by
  rw [emptied_meter, if_pos rfl]

theorem emptied_meter_other (l : LevelMonitor) {c d : Chan} (q : Quantity) (h : d ≠ c) :
    LevelMonitor.meter { l with meters := put l.meters c Meters.empty } d q = l.meter d q := by
  rw [emptied_meter, if_neg h.symm]

/-! ## READ REPORTS and FLUSH REPORTS (R120, R121) -/

theorem exec_readReports {p : Port} {tag : Option Byte} {n : Nat} {s s' t : State} {x : Reply}
    (h : Asked .level p tag (.readReports n) s s') (hx : readReports n s' = (x, t)) :
    exec (.readReports p) s = .next (t.answer p tag x) :=
  congrArg Host.Outcome.next (serve_asked h (congrArg some hx))

theorem readReports_of_out {n : Nat} {s : State} (h : n = 0 ∨ 8 < n) :
    readReports n s = (.plain .range .reportCount, s) :=
  if_neg fun ⟨h1, h8⟩ => h.elim (Nat.ne_of_gt h1) (Nat.not_lt.2 h8)

theorem readReports_of_within {n : Nat} {s : State} (h1 : 1 ≤ n) (h8 : n ≤ 8) :
    readReports n s = (.done (natBytes 1 (min n s.level.reports.length) ++ natBytes 1 (s.level.reports.length - n)
        ++ (s.level.reports.take n).flatMap encodeReport),
      { s with level := { s.level with reports := s.level.reports.drop n } }) := by
  rw [← List.length_take, ← List.length_drop]
  exact if_pos ⟨h1, h8⟩

theorem exec_flushReports {p : Port} {tag : Option Byte} {s s' t : State} {x : Reply}
    (h : Asked .level p tag .flushReports s s') (hx : holderOnly p flushReports s' = (x, t)) :
    exec (.flushReports p) s = .next (t.answer p tag x) :=
  congrArg Host.Outcome.next (serveOnly_answers h hx)

theorem quantity_number (q : Quantity) : q.number = match q with | .rx => 0 | .fwd => 1 | .refl => 2 := by
  cases q <;> rfl

/-- The report record of seven bytes (R184). -/
theorem encodeReport_eq (r : ReportRecord) : encodeReport r =
    [BitVec.ofNat 8 (flag r.loss 128 + 16 * r.channel.val
      + (match r.quantity with | .rx => 0 | .fwd => 1 | .refl => 2))]
      ++ word2 r.stamp.toNat ++ level2 r.mean ++ word2 r.spread := by
  rw [encodeReport, natBytes_two, natBytes_two, levelBytes_eq, quantity_number]
  rfl

/-! ## The reset values (R126) -/

theorem exec_levelMonitorInitialize {m : Message} {s s' : State}
    (h : s.take (Message.isInitNotice .levelMonitor) = some (m, s')) : exec .levelMonitorInitialize s
      = .next { s' with
          level := { LevelMonitor.atReset with straddling := s'.level.straddling }
          transit := s'.transit ++ [.initReport .levelMonitor] } :=
  congrArg Host.Outcome.next (takeInitNotice_some h)

/-- Settles O48: the notices by the pairs they empty, the requests by the queue they shorten, the record by its bytes. -/
theorem offNoticeReportsAndLevelInitialize : Obligations.OffNoticeReportsAndLevelInitialize := by
  refine ⟨fun c s s' h => ⟨_, exec_offNotice h, ?_⟩, fun c m s s' => take_iff isOffNotice_iff,
    fun p tag n s s' h => ?_, fun p tag s s' h => ?_, fun s s' h => ⟨_, exec_levelMonitorInitialize h, ?_⟩,
    encodeReport_eq⟩
  · obtain ⟨l, rfl⟩ := take_from h
    exact ⟨rfl, emptied_meter_same _ c, fun d q hd => emptied_meter_other _ q hd⟩
  · obtain ⟨l, rfl⟩ := asked_from h
    exact ⟨fun hn => exec_readReports h (readReports_of_out hn),
      fun h1 h8 => exec_readReports h (readReports_of_within h1 h8)⟩
  · obtain ⟨l, rfl⟩ := asked_from h
    exact ⟨fun hh => exec_flushReports h (holderOnly_of_not hh),
      fun hh => exec_flushReports h (holderOnly_of_holds (s := s') hh)⟩
  · obtain ⟨l, rfl⟩ := take_from h
    exact ⟨rfl, levelAtReset_meter, rfl, rfl, rfl, rfl, rfl, rfl, rfl⟩

end Sys2Proof.Proofs.LevelMeasurement

/-! # CONFIGURE and READ CONFIG of the measurement items -/

namespace Sys2Proof.Proofs.LevelMeasurement

open Sys2Proof Sys2Proof.Machine Sys2Proof.Proofs.ChannelPlan Sys2Proof.Proofs.Licence

/-! ## WINDOW_LENGTH and SAMPLE_FORMAT (R124) -/

section Measurement

variable {i : Item} {value : List Byte} {set : Option LevelMonitor} {s : State}

theorem setMeasurement_of_operate (hm : s.mode.mode = .operate) :
    setMeasurement i value set s = (.plain .mode .none_, s) := if_pos hm

theorem setMeasurement_of_out (hm : s.mode.mode = .standby) :
    setMeasurement i value none s = (.plain .range .value, s) := if_neg (by simp [hm])

theorem setMeasurement_of_measuring {l : LevelMonitor} {c : Chan} (hm : s.mode.mode = .standby)
    (hc : lowestChan s.measuring = some c) :
    setMeasurement i value (some l) s = (.refused .state .measurementActive (BitVec.ofNat 8 c.val), s) := by
  rw [setMeasurement, if_neg (by simp [hm]), hc]

theorem setMeasurement_of_passes {l : LevelMonitor} (hm : s.mode.mode = .standby)
    (hc : lowestChan s.measuring = none) :
    setMeasurement i value (some l) s = (.done (i.code :: value), { s with level := l }) := by
  rw [setMeasurement, if_neg (by simp [hm]), hc]
  rfl

end Measurement

theorem measuring_iff {s : State} {c : Chan} : s.measuring c = true ↔
    (s.channels.get c).state ≠ .off ∨ ∃ q, (s.level.meter c q).acc ≠ Accumulator.empty := by
  rw [← Bool.not_eq_false, measuring_false_iff, not_and_or, not_forall]

/-- The lowest-numbered channel that measures is the one the refusal names. -/
theorem lowestChan_measuring {s : State} {c : Chan}
    (hc : (s.channels.get c).state ≠ .off ∨ ∃ q, (s.level.meter c q).acc ≠ Accumulator.empty)
    (hbelow : ∀ d < c, (s.channels.get d).state = .off ∧ ∀ q, (s.level.meter d q).acc = Accumulator.empty) :
    lowestChan s.measuring = some c :=
  lowestChan_of_first (measuring_iff.2 hc) fun d hd => measuring_false_iff.2 (hbelow d hd)

section ConfigureMeasurement

variable {cmd : Instr} {i : Item} {p : Port} {tag : Option Byte} {value : List Byte} {s s' : State}
  {set : List Byte → LevelMonitor → Option LevelMonitor}
  (hexec : exec cmd s
    = .next (configureItem i p (fun v => holderOnly p fun s => setMeasurement i v (set v s.level) s) s))
  (h : Asked i.owner p tag (.configure i value) s s')

include hexec h

theorem exec_configureMeasurement {t : State} {x : Reply}
    (hx : holderOnly p (fun s => setMeasurement i value (set value s.level) s) s' = (x, t)) :
    exec cmd s = .next (t.answer p tag x) :=
  hexec.trans (congrArg Host.Outcome.next
    (configureItem_holderOnly (f := fun v s => setMeasurement i v (set v s.level) s) h hx))

/-- A command that sets a measurement item: role, then mode, then range, then the channels that measure, then the item
set. -/
theorem exec_configureMeasurement_cases :
    (¬ Holds s p → exec cmd s = .next (s'.answer p tag (.plain .role .none_)))
    ∧ (Holds s p → s.mode.mode = .operate → exec cmd s = .next (s'.answer p tag (.plain .mode .none_)))
    ∧ (Holds s p → s.mode.mode = .standby → set value s.level = none →
      exec cmd s = .next (s'.answer p tag (.plain .range .value)))
    ∧ (∀ c, Holds s p → s.mode.mode = .standby → (set value s.level).isSome →
      ((s.channels.get c).state ≠ .off ∨ ∃ q, (s.level.meter c q).acc ≠ Accumulator.empty) →
      (∀ d < c, (s.channels.get d).state = .off ∧ ∀ q, (s.level.meter d q).acc = Accumulator.empty) →
      exec cmd s = .next (s'.answer p tag (.refused .state .measurementActive (BitVec.ofNat 8 c.val))))
    ∧ (∀ l, Holds s p → s.mode.mode = .standby → set value s.level = some l →
      (∀ d, (s.channels.get d).state = .off ∧ ∀ q, (s.level.meter d q).acc = Accumulator.empty) →
      exec cmd s = .next (State.answer p tag (.done (i.code :: value)) { s' with level := l })) := by
  obtain ⟨ms, rfl⟩ := asked_from h
  refine ⟨fun hh => exec_configureMeasurement hexec h (holderOnly_of_not hh),
    fun hh hm => exec_configureMeasurement hexec h ?_, fun hh hm hl => exec_configureMeasurement hexec h ?_,
    fun c hh hm hl hc hbelow => exec_configureMeasurement hexec h ?_,
    fun l hh hm hl hnone => exec_configureMeasurement hexec h ?_⟩
  all_goals rw [holderOnly_of_holds (s := s') hh]
  · exact setMeasurement_of_operate hm
  · rw [show set value s'.level = none from hl]
    exact setMeasurement_of_out hm
  · obtain ⟨l, hl⟩ := Option.isSome_iff_exists.1 hl
    rw [show set value s'.level = some l from hl]
    exact setMeasurement_of_measuring hm (lowestChan_measuring (s := s') hc hbelow)
  · rw [show set value s'.level = some l from hl]
    exact setMeasurement_of_passes hm (lowestChan_none.2 fun d => measuring_false_iff.2 (hnone d))

end ConfigureMeasurement

theorem withSampleFormat_byte (l : LevelMonitor) (v : Byte) : l.withSampleFormat (beNat [v]) =
    if v = 0 then some { l with sampleFormat := .offsetBinary }
    else if v = 1 then some { l with sampleFormat := .twosComplement } else none := by
  rw [beNat_one]
  split_ifs with h0 h1
  · rw [h0]
    rfl
  · rw [h1]
    rfl
  · unfold LevelMonitor.withSampleFormat
    split
    · exact absurd (BitVec.eq_of_toNat_eq ‹_›) h0
    · exact absurd (BitVec.eq_of_toNat_eq ‹_›) h1
    · rfl

/-! ## REPORT_SELECT and REPORT_THRESHOLD (R123) -/

theorem exec_configureReportSelect {p : Port} {tag : Option Byte} {value : List Byte} {s s' t : State} {x : Reply}
    (h : Asked .level p tag (.configure .reportSelect value) s s')
    (hx : holderOnly p (setReportSelect value) s' = (x, t)) :
    exec (.configureReportSelect p) s = .next (t.answer p tag x) :=
  congrArg Host.Outcome.next (configureItem_holderOnly (i := .reportSelect) h hx)

theorem exec_configureReportThreshold {p : Port} {tag : Option Byte} {value : List Byte} {s s' t : State} {x : Reply}
    (h : Asked .level p tag (.configure .reportThreshold value) s s')
    (hx : holderOnly p (setReportThreshold value) s' = (x, t)) :
    exec (.configureReportThreshold p) s = .next (t.answer p tag x) :=
  congrArg Host.Outcome.next (configureItem_holderOnly (i := .reportThreshold) h hx)

/-- The set three bytes spell is their 24 bits, most significant byte first (R184). -/
theorem mask_three (x y z : Byte) : BitVec.ofNat 24 (beNat [x, y, z]) = x ++ y ++ z := by
  apply BitVec.eq_of_toNat_eq
  have hx := x.isLt
  have hy := y.isLt
  have hz := z.isLt
  rw [BitVec.toNat_ofNat, BitVec.toNat_append, BitVec.toNat_append, ← Nat.shiftLeft_add_eq_or_of_lt hz,
    ← Nat.shiftLeft_add_eq_or_of_lt hy, Nat.shiftLeft_eq, Nat.shiftLeft_eq]
  simp only [beNat, List.foldl_cons, List.foldl_nil]
  omega

theorem setReportSelect_eq (x y z : Byte) (s : State) : setReportSelect [x, y, z] s
    = (.done [0x0C, x, y, z], { s with level := { s.level with reportSelect := x ++ y ++ z } }) := by
  rw [setReportSelect, mask_three]
  rfl

theorem setReportThreshold_of_out {v : Byte} (s : State) (h : v = 0 ∨ 48 < v.toNat) :
    setReportThreshold [v] s = (.plain .range .value, s) := by
  rw [setReportThreshold, beNat_one]
  refine if_neg fun ⟨h1, h48⟩ => h.elim ?_ (Nat.not_lt.2 h48)
  rintro rfl
  exact Nat.not_succ_le_zero 0 h1

theorem setReportThreshold_of_within {v : Byte} (s : State) (h0 : v ≠ 0) (h48 : v.toNat ≤ 48) :
    setReportThreshold [v] s
      = (.done [0x0D, v], { s with level := { s.level with reportThreshold := v.toNat } }) := by
  rw [setReportThreshold, beNat_one]
  exact if_pos ⟨Nat.pos_of_ne_zero fun h => h0 (BitVec.eq_of_toNat_eq h), h48⟩

/-! ## READ CONFIG (R115, R182) -/

/-- A READ CONFIG of a measurement item, asked: DONE with the item's code and value, to any port. -/
theorem readItem_level {i : Item} {p : Port} {tag : Option Byte} {s s' : State} {bytes : LevelMonitor → List Byte}
    (h : Asked i.owner p tag (.readConfig i []) s s') :
    readItem i p (fun _ s => itemReply i (bytes s.level)) s = s'.answer p tag (.done (i.code :: bytes s.level)) := by
  rw [readItem_asked h]
  obtain ⟨l, rfl⟩ := asked_from h
  rfl

theorem exec_readConfigLatestResult {p : Port} {tag : Option Byte} {params : List Byte} {s s' : State} {x : Reply}
    (h : Asked .level p tag (.readConfig .latestResult params) s s') (hx : latestReply params s' = x) :
    exec (.readConfigLatestResult p) s = .next (s'.answer p tag x) :=
  congrArg Host.Outcome.next ((readItem_asked (i := .latestResult) h).trans (by rw [hx]))

section LatestResult

variable {x y : Byte} (s : State)

theorem fieldAt_second (x y : Byte) : fieldAt [x, y] 1 1 = y.toNat := beNat_one y

theorem latestReply_of_no_channel (h : 8 ≤ x.toNat) : latestReply [x, y] s = .plain .range .channel := by
  rw [latestReply, fieldAt_first, chanOf_none.2 h]
  rfl

theorem latestReply_of_no_quantity (hx : x.toNat < 8) (hy : 3 ≤ y.toNat) :
    latestReply [x, y] s = .plain .range .quantity := by
  have hchan : chanOf x.toNat = some ⟨x.toNat, hx⟩ := chanOf_eq_some.2 rfl
  rw [latestReply, fieldAt_first, fieldAt_second, hchan, quantityOf_none hy]
  rfl

theorem latestReply_of_pair {c : Chan} {q : Quantity} (hx : x.toNat = c.val) (hy : y.toNat = q.number) :
    latestReply [x, y] s = .done
      (0x11 :: x :: y :: natBytes 2 (s.level.meter c q).acc.count ++ encodeLatest (s.level.meter c q).latest) := by
  have hxb : natBytes 1 c.val = [x] := by rw [natBytes_one, ← hx, BitVec.ofNat_toNat, BitVec.setWidth_eq]
  have hyb : natBytes 1 q.number = [y] := by rw [natBytes_one, ← hy, BitVec.ofNat_toNat, BitVec.setWidth_eq]
  rw [latestReply, fieldAt_first, fieldAt_second, hx, hy, chanOf_val, quantityOf_number]
  dsimp only
  rw [meterReply, hxb, hyb]
  rfl

end LatestResult

/-- The latest result byte by byte, its sum and wraps in two's complement (R182, log entry 20). -/
theorem encodeLatest_some (r : WindowResult) : encodeLatest (some r) =
    [1] ++ word2 r.stamp.toNat ++ word2 r.count ++ level2 r.mean ++ level2 r.min ++ level2 r.max
      ++ word3 (r.sum % 16777216).toNat ++ [BitVec.ofNat 8 (r.wraps % 256).toNat] := by
  simp only [encodeLatest, natBytes_one, natBytes_two, natBytes_three, levelBytes_eq, BitVec.toNat_ofInt]
  rfl

/-- Settles O49: each CONFIGURE by the refusals in order, each READ CONFIG by the bytes it answers. -/
theorem measurementConfiguredAndRead : Obligations.MeasurementConfiguredAndRead := by
  refine ⟨fun p tag s s' i cmd value l hi h => ?_, fun p tag s s' x y z h => ?_, fun p tag s s' v h => ?_,
    fun p tag s s' i cmd bytes hi h => ?_, fun p tag x y s s' h => ?_, rfl, encodeLatest_some⟩
  · rcases hi with ⟨hi, lo, rfl, rfl, rfl, rfl⟩ | ⟨v, rfl, rfl, rfl, rfl⟩
    · have hset := exec_configureMeasurement_cases (cmd := .configureWindowLength p)
        (set := fun v l => l.withWindowLength (beNat v)) rfl h
      rwa [beNat_two] at hset
    · have hset := exec_configureMeasurement_cases (cmd := .configureSampleFormat p)
        (set := fun v l => l.withSampleFormat (beNat v)) rfl h
      rwa [withSampleFormat_byte] at hset
  · obtain ⟨l, rfl⟩ := asked_from h
    exact ⟨fun hh => exec_configureReportSelect h (holderOnly_of_not hh),
      fun hh => exec_configureReportSelect h ((holderOnly_of_holds (s := s') hh).trans (setReportSelect_eq x y z s'))⟩
  · obtain ⟨l, rfl⟩ := asked_from h
    exact ⟨fun hh => exec_configureReportThreshold h (holderOnly_of_not hh),
      fun hh hv => exec_configureReportThreshold h
        ((holderOnly_of_holds (s := s') hh).trans (setReportThreshold_of_out s' hv)),
      fun hh h0 h48 => exec_configureReportThreshold h
        ((holderOnly_of_holds (s := s') hh).trans (setReportThreshold_of_within s' h0 h48))⟩
  · rcases hi with ⟨rfl, rfl, rfl⟩ | ⟨rfl, rfl, rfl⟩ | ⟨rfl, rfl, rfl⟩ | ⟨rfl, rfl, rfl⟩
    · exact congrArg Host.Outcome.next (readItem_level (bytes := fun l => natBytes 2 l.windowLength) h)
    · exact congrArg Host.Outcome.next (readItem_level (bytes := fun l => [l.sampleFormat.code]) h)
    · exact congrArg Host.Outcome.next (readItem_level (bytes := fun l => natBytes 3 l.reportSelect.toNat) h)
    · rw [← natBytes_one]
      exact congrArg Host.Outcome.next (readItem_level (bytes := fun l => natBytes 1 l.reportThreshold) h)
  · obtain ⟨l, rfl⟩ := asked_from h
    exact ⟨fun hx => exec_readConfigLatestResult h (latestReply_of_no_channel s' hx),
      fun hx hy => exec_readConfigLatestResult h (latestReply_of_no_quantity s' hx hy),
      fun c q hx hy => exec_readConfigLatestResult h (latestReply_of_pair s' hx hy)⟩

end Sys2Proof.Proofs.LevelMeasurement

/-! # SET MODE (OPERATE) and the ways into STANDBY -/

namespace Sys2Proof.Proofs.SiteModes

open Sys2Proof Sys2Proof.Machine Sys2Proof.Proofs.ChannelPlan Sys2Proof.Proofs.Licence Sys2Proof.Proofs.ChannelSequencer

/-! ## A fault line that stands against OPERATE (R128 test 7) -/

theorem standbyLine_iff {s : State} {n : Line} : s.standbyLine n = true ↔ (s.lines.get n).config.action = .standby
    ∧ ((s.lines.get n).asserted = true ∨ (s.conditions.slots.get (lineSlot n)).latched = true) := by
  simp only [State.standbyLine, Bool.and_eq_true, Bool.or_eq_true, decide_eq_true_eq]

theorem standbyLine_false_iff {s : State} {n : Line} : s.standbyLine n = false ↔
    ((s.lines.get n).config.action = .standby →
      (s.lines.get n).asserted = false ∧ (s.conditions.slots.get (lineSlot n)).latched = false) := by
  rw [← Bool.not_eq_true, standbyLine_iff, not_and, not_or, Bool.not_eq_true, Bool.not_eq_true]

/-! ## Tests 3 to 8 of a SET MODE (OPERATE) (R128) -/

section Tests

variable {s : State}

theorem operateRefusal_of_operate (hm : s.mode.mode = .operate) :
    s.operateRefusal = some (.plain .mode .none_) := if_pos hm

variable (hm : s.mode.mode = .standby)

include hm

theorem operateRefusal_of_awaited (ha : s.mode.awaited ≠ []) :
    s.operateRefusal = some (.plain .busy .initializing) := by
  rw [State.operateRefusal, if_neg (by simp [hm]), if_pos ha]
  rfl

variable (ha : s.mode.awaited = [])

include ha

theorem operateRefusal_of_inFlight (hx : s.licence.storeState = .erasing ∨ s.licence.storeState = .programming) :
    s.operateRefusal = some (.plain .busy .storeInFlight) := by
  rw [State.operateRefusal, if_neg (by simp [hm]), if_neg (not_not.2 ha), if_pos (inFlight_iff.2 hx.symm)]
  rfl

theorem operateRefusal_of_unprotected (hx : s.licence.storeState = .blank ∨ s.licence.storeState = .incomplete) :
    s.operateRefusal = some (.plain .mode .storeNotProtected) := by
  rw [State.operateRefusal, if_neg (by simp [hm]), if_neg (not_not.2 ha)]
  rcases hx with hx | hx <;> rw [hx] <;> rfl

variable (hx : s.licence.storeState = .protected_)

include hx

/-- Past test 6 the lowest line that stands against OPERATE refuses, and without one the validation decides. -/
theorem operateRefusal_of_protected : s.operateRefusal = (lowestChan s.standbyLine).elim (s.validate s.plan.active)
    fun n => some (.refused .faultPresent .lineStandby (BitVec.ofNat 8 (67 + n.val))) := by
  rw [State.operateRefusal, if_neg (by simp [hm]), if_neg (not_not.2 ha), hx]
  cases lowestChan s.standbyLine <;> rfl

theorem operateRefusal_of_line {n : Line} (hn : s.standbyLine n = true) (hbelow : ∀ m < n, s.standbyLine m = false) :
    s.operateRefusal = some (.refused .faultPresent .lineStandby (BitVec.ofNat 8 (67 + n.val))) := by
  rw [operateRefusal_of_protected hm ha hx, lowestChan_of_first hn hbelow, Option.elim_some]

theorem operateRefusal_of_no_line (hnone : ∀ n, s.standbyLine n = false) :
    s.operateRefusal = s.validate s.plan.active := by
  rw [operateRefusal_of_protected hm ha hx, lowestChan_none.2 hnone, Option.elim_none]

end Tests

/-! ## SET MODE (OPERATE) taken (R128, R129) -/

section SetModeOperate

variable {p : Port} {tag : Option Byte} {n : Nat} {s s' t : State} {x : Reply}

theorem exec_setModeOperate (h : Asked .mode p tag (.setMode 1) s s') (hw : s'.entryWaits p = false)
    (hx : holderOnly p setOperate s' = (x, t)) : exec (.setModeOperate p) s = .next (t.answer p tag x) :=
  congrArg Host.Outcome.next (serve_asked h ((if_neg (Bool.eq_false_iff.1 hw)).trans (congrArg some hx)))

/-- A SET MODE (OPERATE) whose entry is not due stays where it is (log entry 31). -/
theorem exec_setModeOperate_waits (h : Asked .mode p tag (.setMode 1) s s') (hw : s'.entryWaits p = true) :
    exec (.setModeOperate p) s = .next s :=
  congrArg Host.Outcome.next (serve_waits h (if_pos hw))

/-- A selector that names neither mode is judged by role and range alone (log entry 21). -/
theorem exec_setModeOperate_bad (hn : 2 ≤ n) (h : Asked .mode p tag (.setMode n) s s')
    (hx : holderOnly p (fun s => (.badMode, s)) s' = (x, t)) : exec (.setModeOperate p) s = .next (t.answer p tag x) :=
  match n, hn, h with
  | _ + 2, _, h => congrArg Host.Outcome.next (serve_asked h (congrArg some hx))

theorem exec_setModeOperate_of_not (hn : n ≠ 0) (h : Asked .mode p tag (.setMode n) s s') (hh : ¬ Holds s' p) :
    exec (.setModeOperate p) s = .next (s'.answer p tag (.plain .role .none_)) := by
  obtain rfl | hn : n = 1 ∨ 2 ≤ n := by omega
  · exact exec_setModeOperate h (by simp [State.entryWaits, State.isHolder, hh]) (holderOnly_of_not hh)
  · exact exec_setModeOperate_bad hn h (holderOnly_of_not hh)

theorem exec_setModeOperate_refused (h : Asked .mode p tag (.setMode 1) s s') (hh : Holds s' p)
    (hx : s'.operateRefusal = some x) : exec (.setModeOperate p) s = .next (s'.answer p tag x) :=
  exec_setModeOperate h (by simp [State.entryWaits, hx])
    ((holderOnly_of_holds hh).trans (by rw [setOperate, hx]))

theorem exec_setModeOperate_enters (h : Asked .mode p tag (.setMode 1) s s') (hh : Holds s' p)
    (hx : s'.operateRefusal = none) (hc : s'.carrierAsked = false) :
    exec (.setModeOperate p) s = .next (State.answer p tag (.done []) s'.enterOperate) :=
  exec_setModeOperate h (by simp [State.entryWaits, hc]) ((holderOnly_of_holds hh).trans (by rw [setOperate, hx]))

theorem entryWaits_of_carrier {c : Chan} (hh : Holds s p) (hx : s.operateRefusal = none)
    (hc : (s.channels.get c).state = .onAir ∨ (s.channels.get c).state = .foldback) : s.entryWaits p = true := by
  have hasked : s.carrierAsked = true := by
    rw [← Bool.not_eq_false, carrierAsked_false]
    exact fun hnone => hc.elim (hnone c).1 (hnone c).2
  simp [State.entryWaits, State.isHolder, hh, hx, hasked]

end SetModeOperate

/-- With no sequencer in ON_AIR or FOLDBACK the entry into OPERATE opens no gate (R129). -/
theorem enterOperate_gate {s : State}
    (hc : ∀ c, (s.channels.get c).state ≠ .onAir ∧ (s.channels.get c).state ≠ .foldback) (c : Chan) :
    s.enterOperate.gate c = false := by
  obtain ⟨hair, hfold⟩ := hc c
  rw [gate_eq]
  exact decide_eq_false fun ⟨_, _, h⟩ => h.elim hair hfold

/-- Settles O50: the tests of R128 one by one, then the entry, which waits for a channel on air. -/
theorem setModeOperateExaminedAndEntered : Obligations.SetModeOperateExaminedAndEntered := by
  intro p tag n s s' h
  obtain ⟨l, rfl⟩ := asked_from h
  refine ⟨fun hn hh => exec_setModeOperate_of_not hn h hh,
    fun hn hh => exec_setModeOperate_bad hn h (holderOnly_of_holds (s := s') hh), ?_, ?_, ?_⟩
  · rintro rfl hh hm
    exact exec_setModeOperate_refused h hh (operateRefusal_of_operate hm)
  · rintro rfl hh hm ha
    exact exec_setModeOperate_refused h hh (operateRefusal_of_awaited hm ha)
  · rintro rfl hh hm ha
    refine ⟨fun hx => exec_setModeOperate_refused h hh (operateRefusal_of_inFlight hm ha hx),
      fun hx => exec_setModeOperate_refused h hh (operateRefusal_of_unprotected hm ha hx),
      fun n hx haction hstands hbelow => exec_setModeOperate_refused h hh (operateRefusal_of_line hm ha hx
        (standbyLine_iff.2 ⟨haction, hstands⟩) fun m hmn => standbyLine_false_iff.2 (hbelow m hmn)),
      fun hx hlines => ?_⟩
    have hvalid : s'.operateRefusal = s'.validate s'.plan.active :=
      operateRefusal_of_no_line hm ha hx fun m => standbyLine_false_iff.2 (hlines m)
    exact ⟨fun x hv => exec_setModeOperate_refused h hh (hvalid.trans hv),
      fun hv hc => ⟨_, exec_setModeOperate_enters h hh (hvalid.trans hv) (carrierAsked_false.2 hc), rfl,
        fun c => (answer_gate ..).trans (enterOperate_gate hc c)⟩,
      fun c hv hc => exec_setModeOperate_waits h (entryWaits_of_carrier hh (hvalid.trans hv) hc)⟩

/-! ## The entry into STANDBY (R130 to R132) -/

theorem goStandby_of_standby (cause : StandbyCause) {s : State} (h : s.mode.mode = .standby) :
    s.goStandby cause = s := by
  rw [State.goStandby, h]

theorem goStandby_of_operate (cause : StandbyCause) {s : State} (h : s.mode.mode = .operate) :
    s.goStandby cause = { s with
      mode := { s.mode with mode := .standby, cause := cause }
      transit := s.transit ++ [.occurrence SiteKind.standbyEntered.slot] ++ (List.finRange 8).map .siteStop
        ++ [.standbyNotice] } := by
  rw [State.goStandby, h, List.append_assoc, List.append_assoc]
  rfl

/-! ## The three ways into STANDBY, each taken (R130, R131) -/

theorem isFaultStandby_iff {n : Line} (x : Message) : x.isFaultStandby n = true ↔ x = .faultStandby n := by
  cases x <;> simp [Message.isFaultStandby]

theorem exec_setModeStandby {p : Port} {tag : Option Byte} {s s' t : State} {x : Reply}
    (h : Asked .mode p tag (.setMode 0) s s')
    (hx : holderOnly p (fun s => (.done [], s.goStandby (.request p))) s' = (x, t)) :
    exec (.setModeStandby p) s = .next (t.answer p tag x) :=
  congrArg Host.Outcome.next (serve_asked h (congrArg some hx))

theorem exec_siteStandby {p : Port} {tag : Option Byte} {s s' : State} (h : Asked .mode p tag .siteStandby s s') :
    exec (.siteStandby p) s = .next (State.answer p tag (.done []) (s'.goStandby (.emergency p))) :=
  congrArg Host.Outcome.next (serveOnly_asked h)

theorem exec_faultStandby {n : Line} {m : Message} {s s' : State}
    (h : s.take (Message.isFaultStandby n) = some (m, s')) :
    exec (.faultStandby n) s = .next (s'.goStandby (.faultLine n)) := by
  simp only [exec, execFaultStandby, h]

/-- Settles O51: each way is goStandby with its cause, answered or not, and goStandby acts by the mode. -/
theorem waysIntoStandby : Obligations.WaysIntoStandby := by
  refine ⟨fun n m s s' => take_iff isFaultStandby_iff, fun p tag s s' i cause reply hway => ?_⟩
  obtain ⟨hexec, hgate, l, rfl⟩ : exec i s = .next (reply (s'.goStandby cause))
      ∧ (∀ t c, (reply t).gate c = t.gate c) ∧ ∃ l, s = { s' with transit := l } := by
    rcases hway with ⟨rfl, h, hh, rfl, rfl⟩ | ⟨rfl, h, rfl, rfl⟩ | ⟨n, rfl, h, rfl, rfl⟩
    · obtain ⟨l, rfl⟩ := asked_from h
      exact ⟨exec_setModeStandby h (holderOnly_of_holds (s := s') hh), fun t => answer_gate p tag _ t, l, rfl⟩
    · exact ⟨exec_siteStandby h, fun t => answer_gate p tag _ t, asked_from h⟩
    · exact ⟨exec_faultStandby h, fun _ _ => rfl, take_from h⟩
  refine ⟨fun hm => ?_, fun hm => ⟨_, hexec, goStandby_of_operate cause hm, fun c => ?_⟩⟩
  · rw [hexec, goStandby_of_standby (s := s') cause hm]
  · rw [hgate]
    exact gate_of_standby (EpochTimebase.goStandby_mode cause s') c

end Sys2Proof.Proofs.SiteModes

/-! # INITIALIZE and the refusals of SET MODE (STANDBY) -/

namespace Sys2Proof.Proofs.SiteModes

open Sys2Proof Sys2Proof.Machine Sys2Proof.Proofs.ChannelPlan Sys2Proof.Proofs.Licence

/-! ## INITIALIZE (R134) -/

theorem exec_initializeSite {p : Port} {tag : Option Byte} {s s' t : State} {x : Reply}
    (h : Asked .mode p tag .initializeSite s s') (hx : holderOnly p initializeAll s' = (x, t)) :
    exec (.initializeSite p) s = .next (t.answer p tag x) :=
  congrArg Host.Outcome.next (serveOnly_answers h hx)

theorem initializeAll_of_operate {s : State} (hm : s.mode.mode = .operate) :
    initializeAll s = (.plain .mode .none_, s) := if_pos hm

theorem initializeAll_of_awaited {s : State} (hm : s.mode.mode = .standby) (ha : s.mode.awaited ≠ []) :
    initializeAll s = (.plain .busy .initializing, s) := by
  rw [initializeAll, if_neg (by simp [hm]), if_pos ha]
  rfl

theorem initializeAll_of_passes {s : State} (hm : s.mode.mode = .standby) (ha : s.mode.awaited = []) :
    initializeAll s = (.done [],
      { s with
        mode := { s.mode with awaited := initBlocks }
        transit := s.transit ++ initBlocks.map .initNotice }) := by
  rw [initializeAll, if_neg (by simp [hm]), if_neg (not_not.2 ha)]
  rfl

theorem exec_initializeNoticeReport {b : InitBlock} {m : Message} {s s' : State}
    (h : s.take (Message.isInitReport b) = some (m, s')) : exec (.initializeNoticeReport b) s
      = .next { s' with mode := { s'.mode with awaited := s'.mode.awaited.filter fun x => decide (x ≠ b) } } := by
  simp only [exec, execInitializeNoticeReport, h]

theorem isStandbyNotice_iff (x : Message) : x.isStandbyNotice = true ↔ x = .standbyNotice := by
  cases x <;> simp [Message.isStandbyNotice]

theorem isInitNotice_iff {b : InitBlock} (x : Message) : x.isInitNotice b = true ↔ x = .initNotice b := by
  cases x <;> simp [Message.isInitNotice]

theorem isInitReport_iff {b : InitBlock} (x : Message) : x.isInitReport b = true ↔ x = .initReport b := by
  cases x <;> simp [Message.isInitReport]

/-! ## SET MODE (STANDBY) refused (R128 tests 1 and 2, R130) -/

theorem exec_setModeStandby_bad {p : Port} {tag : Option Byte} {n : Nat} {s s' t : State} {x : Reply} (hn : 2 ≤ n)
    (h : Asked .mode p tag (.setMode n) s s') (hx : holderOnly p (fun s => (.badMode, s)) s' = (x, t)) :
    exec (.setModeStandby p) s = .next (t.answer p tag x) :=
  match n, hn, h with
  | _ + 2, _, h => congrArg Host.Outcome.next (serve_asked h (congrArg some hx))

theorem exec_setModeStandby_of_not {p : Port} {tag : Option Byte} {n : Nat} {s s' : State} (hn : n ≠ 1)
    (h : Asked .mode p tag (.setMode n) s s') (hh : ¬ Holds s' p) :
    exec (.setModeStandby p) s = .next (s'.answer p tag (.plain .role .none_)) := by
  obtain rfl | hn : n = 0 ∨ 2 ≤ n := by omega
  · exact exec_setModeStandby h (holderOnly_of_not hh)
  · exact exec_setModeStandby_bad hn h (holderOnly_of_not hh)

/-- Settles O52: INITIALIZE by its refusals in order and the notices sent, a report by the block no longer awaited. -/
theorem initializeSendsNoticesAndAwaitsReports : Obligations.InitializeSendsNoticesAndAwaitsReports := by
  refine ⟨fun p tag s s' h => ?_, fun b s s' h => ?_, fun p tag n s s' h hn => ?_, fun b m s s' =>
    ⟨take_iff isStandbyNotice_iff, take_iff isInitNotice_iff, take_iff isInitReport_iff⟩⟩
  · obtain ⟨l, rfl⟩ := asked_from h
    exact ⟨fun hh => exec_initializeSite h (holderOnly_of_not hh),
      fun hh hm => exec_initializeSite h
        ((holderOnly_of_holds (s := s') hh).trans (initializeAll_of_operate hm)),
      fun hh hm ha => exec_initializeSite h
        ((holderOnly_of_holds (s := s') hh).trans (initializeAll_of_awaited hm ha)),
      fun hh hm ha => exec_initializeSite h
        ((holderOnly_of_holds (s := s') hh).trans (initializeAll_of_passes hm ha))⟩
  · rw [exec_initializeNoticeReport h]
    obtain ⟨l, rfl⟩ := take_from h
    rfl
  · obtain ⟨l, rfl⟩ := asked_from h
    exact ⟨fun hh => exec_setModeStandby_of_not hn h hh,
      fun hh hn => exec_setModeStandby_bad hn h (holderOnly_of_holds (s := s') hh)⟩

end Sys2Proof.Proofs.SiteModes

/-! # Fault lines: filtering, assertion and deassertion -/

namespace Sys2Proof.Proofs.FaultLines

open Sys2Proof Sys2Proof.Machine

/-! ## Whether a line is asserted (R137) -/

theorem asserted_iff {l : FaultLine} : l.asserted = true ↔
    l.config.polarity = .activeLow ∧ l.filteredHigh = false
      ∨ l.config.polarity = .activeHigh ∧ l.filteredHigh = true := by
  rw [FaultLine.asserted]
  cases l.config.polarity <;> simp [Polarity.asserts]

theorem asserted_false_iff {l : FaultLine} : l.asserted = false ↔
    l.config.polarity = .activeLow ∧ l.filteredHigh = true
      ∨ l.config.polarity = .activeHigh ∧ l.filteredHigh = false := by
  rw [FaultLine.asserted]
  cases l.config.polarity <;> simp [Polarity.asserts]

theorem asserts_not (k : Polarity) (high : Bool) : k.asserts (!high) = !k.asserts high := by
  cases k <;> cases high <;> rfl

theorem filtering_iff {l : FaultLine} : l.filtering = true ↔ l.pinHigh ≠ l.filteredHigh := by
  simp [FaultLine.filtering]

/-- The end of a filter interval turns the line over: asserted becomes deasserted, and the other way round. -/
theorem asserted_filtered {l : FaultLine} (h : l.pinHigh ≠ l.filteredHigh) :
    l.asserted = !FaultLine.asserted { l with filteredHigh := l.pinHigh } := by
  have hpin : l.filteredHigh = !l.pinHigh := Bool.eq_not.2 h.symm
  rw [FaultLine.asserted, hpin, asserts_not]
  rfl

/-! ## What a change of a line sends (R138 to R140) -/

section Change

variable {n : Line} {new : FaultLine} {s : State}

theorem changeLine_keeps (h : new.asserted = (s.lines.get n).asserted) :
    s.changeLine n new = { s with lines := put s.lines n new } := by
  rw [State.changeLine, lineMessages, if_pos h, State.send, List.append_nil]
  rfl

theorem changeLine_deasserts (hnew : new.asserted = false) (hold : (s.lines.get n).asserted = true) :
    s.changeLine n new = { s with lines := put s.lines n new, transit := s.transit ++ [.deassertion n] } := by
  rw [State.changeLine, lineMessages, if_neg (by simp [hnew, hold]), if_neg (by simp [hnew])]
  rfl

theorem changeLine_asserts (hnew : new.asserted = true) (hold : (s.lines.get n).asserted = false) :
    s.changeLine n new = { s with
      lines := put s.lines n new
      transit := s.transit ++ .occurrence (lineSlot n) :: actionMessages n new.config } := by
  rw [State.changeLine, lineMessages, if_neg (by simp [hnew, hold]), if_pos hnew]
  rfl

end Change

/-- What the ACTION of a line sends beside the occurrence, action by action (R139). -/
theorem actionMessages_of {n : Line} {k : LineConfig} :
    (k.action = .report → actionMessages n k = [])
    ∧ (k.action = .standby → actionMessages n k = [.faultStandby n])
    ∧ (k.action = .shutdown →
      actionMessages n k = ((List.finRange 8).filter fun c => k.channels.getLsbD c.val).map .faultShutdown) := by
  refine ⟨fun h => ?_, fun h => ?_, fun h => ?_⟩
  all_goals rw [actionMessages, h]

/-! ## Pin changes and filter intervals (R136) -/

theorem exec_faultPinChange {n : Line} {s : State} (hr : s.phase = .running) (high : Bool) :
    exec (.faultPinChange n high) s = .next (s.setLine n { s.lines.get n with pinHigh := high }) :=
  congrArg Host.Outcome.next (whenRunning_of hr)

section FilterInterval

variable {n : Line} {s : State} (hr : s.phase = .running)

include hr

theorem exec_filterIntervalEnd_of_agree (h : (s.lines.get n).pinHigh = (s.lines.get n).filteredHigh) :
    exec (.filterIntervalEnd n) s = .next s :=
  congrArg Host.Outcome.next ((whenRunning_of hr).trans (if_neg (mt filtering_iff.1 (not_not.2 h))))

variable {l : FaultLine} (hl : l = { s.lines.get n with filteredHigh := (s.lines.get n).pinHigh })
  (h : (s.lines.get n).pinHigh ≠ (s.lines.get n).filteredHigh)

include hl h

theorem exec_filterIntervalEnd : exec (.filterIntervalEnd n) s = .next (s.changeLine n l) := by
  rw [hl]
  exact congrArg Host.Outcome.next ((whenRunning_of hr).trans (if_pos (filtering_iff.2 h)))

theorem exec_filterIntervalEnd_deasserts (hd : l.asserted = false) : exec (.filterIntervalEnd n) s
    = .next { s with lines := put s.lines n l, transit := s.transit ++ [.deassertion n] } := by
  have hold : (s.lines.get n).asserted = true := by rw [asserted_filtered h, ← hl, hd]; rfl
  rw [exec_filterIntervalEnd hr hl h, changeLine_deasserts hd hold]

theorem exec_filterIntervalEnd_asserts (ha : l.asserted = true) : exec (.filterIntervalEnd n) s
    = .next { s with
        lines := put s.lines n l
        transit := s.transit ++ .occurrence (lineSlot n) :: actionMessages n l.config } := by
  have hold : (s.lines.get n).asserted = false := by rw [asserted_filtered h, ← hl, ha]; rfl
  rw [exec_filterIntervalEnd hr hl h, changeLine_asserts ha hold]

end FilterInterval

/-- Settles O53: the end of an interval turns the line over, and an assertion sends what the ACTION says. -/
theorem filteredLevelAssertsAndDeassertsLine : Obligations.FilteredLevelAssertsAndDeassertsLine := by
  intro n s hr
  refine ⟨exec_faultPinChange hr, exec_filterIntervalEnd_of_agree hr, fun l hl h =>
    ⟨fun hd => exec_filterIntervalEnd_deasserts hr hl h (asserted_false_iff.2 hd), fun ha => ?_⟩⟩
  rw [exec_filterIntervalEnd_asserts hr hl h (asserted_iff.2 ha)]
  obtain ⟨hreport, hstandby, hshutdown⟩ := actionMessages_of (n := n) (k := l.config)
  refine ⟨fun hx => ?_, fun hx => ?_, fun hx => ?_⟩
  · rw [hreport hx]
  · rw [hstandby hx]
  · rw [hshutdown hx]

end Sys2Proof.Proofs.FaultLines

/-! # CONFIGURE and READ CONFIG of LINE, and the defaults of the lines -/

namespace Sys2Proof.Proofs.FaultLines

open Sys2Proof Sys2Proof.Machine Sys2Proof.Proofs.ChannelPlan

/-! ## The fields of a LINE value (R137, R181) -/

theorem polarity_ofCode_none : ∀ {n : Nat}, 2 ≤ n → Polarity.ofCode n = none
  | _ + 2, _ => rfl

theorem sensitivity_ofCode_none : ∀ {n : Nat}, 2 ≤ n → Sensitivity.ofCode n = none
  | _ + 2, _ => rfl

theorem lineAction_ofCode_none : ∀ {n : Nat}, 3 ≤ n → LineAction.ofCode n = none
  | _ + 3, _ => rfl

theorem polarity_ofCode_code (k : Polarity) : Polarity.ofCode k.code.toNat = some k := by cases k <;> rfl

theorem sensitivity_ofCode_code (k : Sensitivity) : Sensitivity.ofCode k.code.toNat = some k := by cases k <;> rfl

theorem lineAction_ofCode_code (k : LineAction) : LineAction.ofCode k.code.toNat = some k := by cases k <;> rfl

section LineValue

variable (v0 v1 v2 v3 v4 : Byte)

theorem lineConfigOf_bytes : lineConfigOf [v0, v1, v2, v3, v4] = (Polarity.ofCode v1.toNat).bind fun polarity =>
    (Sensitivity.ofCode v2.toNat).bind fun sensitivity => (LineAction.ofCode v3.toNat).map fun action =>
      ⟨polarity, sensitivity, action, v4⟩ := by
  rw [lineConfigOf, show fieldAt [v0, v1, v2, v3, v4] 1 1 = v1.toNat from beNat_one v1,
    show fieldAt [v0, v1, v2, v3, v4] 2 1 = v2.toNat from beNat_one v2,
    show fieldAt [v0, v1, v2, v3, v4] 3 1 = v3.toNat from beNat_one v3,
    show fieldAt [v0, v1, v2, v3, v4] 4 1 = v4.toNat from beNat_one v4, BitVec.ofNat_toNat, BitVec.setWidth_eq]
  cases Polarity.ofCode v1.toNat <;> cases Sensitivity.ofCode v2.toNat <;> cases LineAction.ofCode v3.toNat <;> rfl

theorem lineConfigOf_none (h : 2 ≤ v1.toNat ∨ 2 ≤ v2.toNat ∨ 3 ≤ v3.toNat) :
    lineConfigOf [v0, v1, v2, v3, v4] = none := by
  rw [lineConfigOf_bytes]
  rcases h with h | h | h
  · rw [polarity_ofCode_none h, Option.bind_none]
  · simp only [sensitivity_ofCode_none h, Option.bind_none, Option.bind_fun_none]
  · simp only [lineAction_ofCode_none h, Option.map_none, Option.bind_fun_none]

/-- The record of a line's four fields spells those fields. -/
theorem lineConfigOf_encodeLineConfig (k : LineConfig) : lineConfigOf (v0 :: encodeLineConfig k) = some k := by
  rw [encodeLineConfig, lineConfigOf_bytes, polarity_ofCode_code, sensitivity_ofCode_code, lineAction_ofCode_code]
  rfl

end LineValue

/-! ## CONFIGURE of LINE (R138) -/

theorem exec_configureLine {p : Port} {tag : Option Byte} {value : List Byte} {s s' t : State} {x : Reply}
    (h : Asked .faultLines p tag (.configure .line value) s s') (hx : holderOnly p (setLineConfig value) s' = (x, t)) :
    exec (.configureLine p) s = .next (t.answer p tag x) :=
  congrArg Host.Outcome.next (configureItem_holderOnly (i := .line) h hx)

section SetLineConfig

variable {v : Byte} {value : List Byte} {s : State}

theorem setLineConfig_of_operate (hm : s.mode.mode = .operate) :
    setLineConfig value s = (.plain .mode .none_, s) := if_pos hm

variable (hm : s.mode.mode = .standby)

include hm

theorem setLineConfig_of_no_line (hv : 8 ≤ v.toNat) :
    setLineConfig (v :: value) s = (.plain .range .line, s) := by
  rw [setLineConfig, if_neg (by simp [hm]), fieldAt_first, chanOf_none.2 hv]
  rfl

theorem setLineConfig_of_bad_field (hv : v.toNat < 8) (hk : lineConfigOf (v :: value) = none) :
    setLineConfig (v :: value) s = (.refused .range .lineField v, s) := by
  have hline : chanOf v.toNat = some ⟨v.toNat, hv⟩ := chanOf_eq_some.2 rfl
  rw [setLineConfig, if_neg (by simp [hm]), fieldAt_first, hline]
  dsimp only
  rw [hk, BitVec.ofNat_toNat, BitVec.setWidth_eq]

theorem setLineConfig_of_passes {n : Line} {k : LineConfig} (hv : v.toNat = n.val)
    (hk : lineConfigOf (v :: value) = some k) :
    setLineConfig (v :: value) s
      = (.done (0x0E :: v :: value), s.changeLine n { s.lines.get n with config := k }) := by
  rw [setLineConfig, if_neg (by simp [hm]), fieldAt_first, hv, chanOf_val]
  dsimp only
  rw [hk]
  rfl

end SetLineConfig

/-- A CONFIGURE of LINE that passes, taken: the fields replaced and the line re-evaluated (R138). -/
theorem exec_configureLine_sets {p : Port} {tag : Option Byte} {v : Byte} {n : Line} {k : LineConfig} {s s' : State}
    (h : Asked .faultLines p tag (.configure .line (v :: encodeLineConfig k)) s s') (hh : Holds s' p)
    (hm : s'.mode.mode = .standby) (hv : v.toNat = n.val) : exec (.configureLine p) s
      = .next (State.answer p tag (.done (0x0E :: v :: encodeLineConfig k))
        (s'.changeLine n { s'.lines.get n with config := k })) :=
  exec_configureLine h ((holderOnly_of_holds hh).trans
    (setLineConfig_of_passes hm hv (lineConfigOf_encodeLineConfig v k)))

/-! ## READ CONFIG of LINE (R138, R182) -/

theorem exec_readConfigLine {p : Port} {tag : Option Byte} {params : List Byte} {s s' : State} {x : Reply}
    (h : Asked .faultLines p tag (.readConfig .line params) s s') (hx : readLineReply params s' = x) :
    exec (.readConfigLine p) s = .next (s'.answer p tag x) :=
  congrArg Host.Outcome.next ((readItem_asked (i := .line) h).trans (by rw [hx]))

theorem readLineReply_of_no_line {v : Byte} (s : State) (hv : 8 ≤ v.toNat) :
    readLineReply [v] s = .plain .range .line := by
  rw [readLineReply, fieldAt_first, chanOf_none.2 hv]
  rfl

theorem readLineReply_of_line {v : Byte} {n : Line} (s : State) (hv : v.toNat = n.val) :
    readLineReply [v] s = .done [0x0E, v, (s.lines.get n).config.polarity.code,
      (s.lines.get n).config.sensitivity.code, (s.lines.get n).config.action.code, (s.lines.get n).config.channels,
      if (s.lines.get n).filteredHigh then 1 else 0, if (s.lines.get n).asserted then 1 else 0] := by
  have hbyte : natBytes 1 n.val = [v] := by rw [natBytes_one, ← hv, BitVec.ofNat_toNat, BitVec.setWidth_eq]
  rw [readLineReply, fieldAt_first, hv, chanOf_val]
  dsimp only
  rw [hbyte]
  rfl

/-! ## The defaults at the notice of an INITIALIZE (R142) -/

/-- Under the default configuration a line is asserted at LOW, and an assertion sends the occurrence alone. -/
theorem lineMessages_toDefault (n : Line) (l : FaultLine) : lineMessages n l l.toDefault =
    if l.asserted = !l.filteredHigh then []
    else if l.filteredHigh then [.deassertion n]
    else [.occurrence (lineSlot n)] := by
  have hdefault : l.toDefault.asserted = !l.filteredHigh := rfl
  rw [lineMessages, hdefault]
  refine if_congr eq_comm rfl ?_
  cases l.filteredHigh <;> rfl

theorem exec_faultLineInitialize {m : Message} {s s' : State}
    (h : s.take (Message.isInitNotice .faultLineMonitor) = some (m, s')) :
    exec .faultLineInitialize s = .next (State.send [.initReport .faultLineMonitor] s'.initializeLines) :=
  congrArg Host.Outcome.next (takeInitNotice_some h)

/-- Settles O54: CONFIGURE by its tests and by what the change of the line sends, READ CONFIG by its bytes. -/
theorem lineConfiguredReadAndInitialized : Obligations.LineConfiguredReadAndInitialized := by
  refine ⟨fun p tag v0 v1 v2 v3 v4 s s' h => ?_, fun p tag v s s' h => ?_,
    fun s s' h => ⟨_, exec_faultLineInitialize h, ?_⟩⟩
  · obtain ⟨l, rfl⟩ := asked_from h
    refine ⟨fun hh => exec_configureLine h (holderOnly_of_not hh),
      fun hh hm => exec_configureLine h ((holderOnly_of_holds (s := s') hh).trans (setLineConfig_of_operate hm)),
      fun hh hm hv => exec_configureLine h
        ((holderOnly_of_holds (s := s') hh).trans (setLineConfig_of_no_line hm hv)),
      fun hh hm hv hk => exec_configureLine h ((holderOnly_of_holds (s := s') hh).trans
        (setLineConfig_of_bad_field hm hv (lineConfigOf_none v0 v1 v2 v3 v4 hk))), ?_⟩
    rintro n k new hh hm hv rfl rfl rfl rfl hnew
    rw [exec_configureLine_sets h hh hm hv, ← show new = { s'.lines.get n with config := k } from hnew]
    refine ⟨fun hsame => ?_, fun hd hold => ?_, fun ha hold => ?_⟩
    · rw [changeLine_keeps (s := s') hsame]
      rfl
    · rw [changeLine_deasserts (s := s') hd hold]
      rfl
    · rw [changeLine_asserts (s := s') ha hold, hnew]
      rfl
  · obtain ⟨l, rfl⟩ := asked_from h
    exact ⟨fun hv => exec_readConfigLine h (readLineReply_of_no_line s' hv),
      fun n hv => exec_readConfigLine h (readLineReply_of_line s' hv)⟩
  · obtain ⟨l, rfl⟩ := take_from h
    refine ⟨rfl, fun n => ofFn_get _ n, ?_⟩
    simp only [← lineMessages_toDefault]
    rfl

end Sys2Proof.Proofs.FaultLines

/-! # Authority: the port records and their law -/

namespace Sys2Proof.Proofs.Authority

open Sys2Proof Sys2Proof.Machine Sys2Proof.Proofs.ChannelPlan

/-! ## Reading and replacing port records (R143) -/

section Records

variable {u v : AuthorityUnit} {p q : Port} {x : PortRecord} {f : PortRecord → PortRecord}

@[simp] theorem get_set_same : (u.set p x).get p = x := by cases p <;> rfl

theorem get_set : (u.set p x).get q = if q = p then x else u.get q := by
  cases p <;> cases q <;> rfl

theorem get_set_other (h : q ≠ p) : (u.set p x).get q = u.get q :=
  get_set.trans (if_neg h)

@[simp] theorem set_limit : (u.set p x).limit = u.limit := by cases p <;> rfl

@[simp] theorem get_mapRecords : (u.mapRecords f).get p = f (u.get p) := by cases p <;> rfl

@[simp] theorem mapRecords_limit : (u.mapRecords f).limit = u.limit := rfl

/-- A unit is its three port records and its limit. -/
theorem unit_ext (hget : ∀ p, u.get p = v.get p) (hlimit : u.limit = v.limit) : u = v := by
  obtain ⟨a, b, s, n⟩ := u
  obtain rfl : a = v.a := hget .a
  obtain rfl : b = v.b := hget .b
  obtain rfl : s = v.s := hget .s
  obtain rfl : n = v.limit := hlimit
  rfl

theorem anyRecord_iff {test : PortRecord → Bool} : u.anyRecord test = true ↔ ∃ p, test (u.get p) = true := by
  rw [AuthorityUnit.anyRecord, Bool.or_eq_true, Bool.or_eq_true]
  constructor
  · rintro ((h | h) | h)
    exacts [⟨.a, h⟩, ⟨.b, h⟩, ⟨.s, h⟩]
  · rintro ⟨_ | _ | _, h⟩
    exacts [Or.inl (Or.inl h), Or.inl (Or.inr h), Or.inr h]

end Records

/-! ## The port that holds a role (R143) -/

section PortWith

variable {u : AuthorityUnit} {p q : Port} {x : PortRecord} {r : Role}

theorem portWith_eq_none : u.portWith r = none ↔ ∀ p, (u.get p).role ≠ r := by
  rw [AuthorityUnit.portWith, List.find?_eq_none]
  exact ⟨fun h p => by simpa using h p (by cases p <;> decide), fun h p _ => by simpa using h p⟩

theorem portWith_some (h : u.portWith r = some p) : (u.get p).role = r :=
  of_decide_eq_true (List.find?_some (p := fun p => decide ((u.get p).role = r)) h)

/-- The only port that holds a role is the one found. -/
theorem portWith_eq_some (hq : (u.get q).role = r) (honly : ∀ p, (u.get p).role = r → p = q) :
    u.portWith r = some q := by
  cases h : u.portWith r with
  | none => exact absurd hq (portWith_eq_none.1 h q)
  | some p => rw [honly p (portWith_some h)]

/-- A record replaced by one that holds the role exactly where the old one did. -/
theorem portWith_set_of_iff (h : x.role = r ↔ (u.get p).role = r) : (u.set p x).portWith r = u.portWith r := by
  refine congrArg (List.find? · _) (funext fun q => decide_eq_decide.2 ?_)
  rw [get_set]
  split_ifs with hq
  · rw [h, hq]
  · rfl

/-- A role that no port held belongs to the port it is given to. -/
theorem portWith_set_of_none (h : u.portWith r = none) (hx : x.role = r) : (u.set p x).portWith r = some p := by
  refine portWith_eq_some (by rw [get_set_same, hx]) fun q hq => ?_
  by_contra hne
  rw [get_set_other hne] at hq
  exact portWith_eq_none.1 h q hq

end PortWith

/-! ## The law, and the law without a holder beside the reserve (R144, R145) -/

/-- A count in its range: below the limit beside a role, 0 without one (R145). -/
def CountFits (limit : Nat) (r : PortRecord) : Prop :=
  (r.role ≠ .idle → r.count < limit) ∧ (r.role = .idle → r.count = 0)

/-- The law of the Authority Unit but for the holder beside a reserve: what stands between the holder's release or lapse
and the handover (R148, R150). -/
structure Sound (u : AuthorityUnit) : Prop where
  oneEach : ∀ p q, (u.get p).role ≠ .idle → (u.get q).role = (u.get p).role → q = p
  neverS : u.s.role ≠ .reserve
  counts : ∀ p, CountFits u.limit (u.get p)
  limitRange : 2 ≤ u.limit ∧ u.limit ≤ 255

theorem lawful_iff {u : AuthorityUnit} :
    u.Lawful ↔ Sound u ∧ ∀ p, (u.get p).role = .reserve → ∃ q, (u.get q).role = .holder := by
  constructor
  · intro h
    refine ⟨⟨fun p q hp hq => ?_, h.neverS, fun p => ⟨h.belowLimit p, h.idleZero p⟩, h.limitRange⟩,
      h.reserveBesideHolder⟩
    cases hr : (u.get p).role with
    | idle => exact absurd hr hp
    | holder => exact h.oneHolder q p (hq.trans hr) hr
    | reserve => exact h.oneReserve q p (hq.trans hr) hr
  · rintro ⟨h, hbeside⟩
    have hone : ∀ {r : Role}, r ≠ .idle → ∀ p q, (u.get p).role = r → (u.get q).role = r → p = q :=
      fun hr p q hp hq => h.oneEach q p (hq ▸ hr) (hp.trans hq.symm)
    exact ⟨hone (by decide), hone (by decide), hbeside, h.neverS, fun p => (h.counts p).1, fun p => (h.counts p).2,
      h.limitRange⟩

theorem countFits_zero {limit : Nat} (h : 2 ≤ limit) (r : Role) : CountFits limit ⟨r, 0⟩ :=
  ⟨fun _ => Nat.lt_of_lt_of_le Nat.two_pos h, fun _ => rfl⟩

section Law

variable {u : AuthorityUnit} {p q : Port} {r : Role}

theorem get_of_idle (hu : u.Lawful) (h : (u.get p).role = .idle) : u.get p = ⟨.idle, 0⟩ :=
  PortRecord.mk.injEq .. ▸ ⟨h, hu.idleZero p h⟩

theorem portWith_of_sound (hu : Sound u) (h : (u.get p).role = r) (hr : r ≠ .idle) : u.portWith r = some p :=
  portWith_eq_some h fun q hq => hu.oneEach p q (h ▸ hr) (hq.trans h.symm)

/-- Once its port has given a role up no port holds it. -/
theorem portWith_vacated (hu : Sound u) (h : (u.get p).role = r) (hr : r ≠ .idle) :
    (u.set p ⟨.idle, 0⟩).portWith r = none := by
  refine portWith_eq_none.2 fun q hq => ?_
  rw [get_set] at hq
  split_ifs at hq with hne
  · exact hr hq.symm
  · exact hne (hu.oneEach p q (h ▸ hr) (hq.trans h.symm))

/-- A port's record replaced with count 0: the new role is idle or no other port's, and Port S is not made reserve. -/
theorem set_sound (hu : Sound u) (hone : r ≠ .idle → ∀ q, q ≠ p → (u.get q).role ≠ r) (hs : p = .s → r ≠ .reserve) :
    Sound (u.set p ⟨r, 0⟩) where
  oneEach q q' hq hq' := by
    rw [get_set] at hq hq'
    rw [get_set] at hq'
    split_ifs at hq hq' with h h' h'
    · rw [h, h']
    · exact absurd hq' (hone hq q' h')
    · exact absurd hq'.symm (hone (hq'.trans_ne hq) q h)
    · exact hu.oneEach q q' hq hq'
  neverS := by
    show ((u.set p ⟨r, 0⟩).get .s).role ≠ .reserve
    rw [get_set]
    split_ifs with h
    · exact hs h.symm
    · exact hu.neverS
  counts q := by
    rw [set_limit, get_set]
    split_ifs
    · exact countFits_zero hu.limitRange.1 r
    · exact hu.counts q
  limitRange := by rw [set_limit]; exact hu.limitRange

/-- The same keeps the law where the holder stays holder and a reserve is made beside a holder. -/
theorem set_lawful (hu : u.Lawful) (hone : r ≠ .idle → ∀ q, q ≠ p → (u.get q).role ≠ r) (hs : p = .s → r ≠ .reserve)
    (hkeeps : (u.get p).role = .holder → r = .holder) (hbeside : r = .reserve → ∃ q, (u.get q).role = .holder) :
    (u.set p ⟨r, 0⟩).Lawful := by
  refine lawful_iff.2 ⟨set_sound (lawful_iff.1 hu).1 hone hs, fun q' hq' => ?_⟩
  obtain ⟨q, hq⟩ : ∃ q, (u.get q).role = .holder := by
    rw [get_set] at hq'
    split_ifs at hq'
    · exact hbeside hq'
    · exact hu.reserveBesideHolder q' hq'
  refine ⟨q, ?_⟩
  rw [get_set]
  split_ifs with h
  · exact hkeeps (h ▸ hq)
  · exact hq

/-- A port with a role whose count is set to 0 (R145). -/
theorem renew_lawful (hu : u.Lawful) (hr : r ≠ .idle) (h : (u.get p).role = r) : (u.set p ⟨r, 0⟩).Lawful := by
  refine set_lawful hu (fun _ q hne hq => hne ((lawful_iff.1 hu).1.oneEach p q (h ▸ hr) (hq.trans h.symm))) ?_
    (fun hp => h.symm.trans hp) fun hres => hu.reserveBesideHolder p (h.trans hres)
  rintro rfl hres
  exact hu.neverS (h.trans hres)

/-- Every record changed the same way, roles kept or given up, counts in the range of the new limit. -/
theorem mapRecords_sound {f : PortRecord → PortRecord} {limit : Nat} (hu : Sound u)
    (hrole : ∀ r, (f r).role = r.role ∨ (f r).role = .idle)
    (hcounts : ∀ r, CountFits u.limit r → CountFits limit (f r)) (hlimit : 2 ≤ limit ∧ limit ≤ 255) :
    Sound { u.mapRecords f with limit := limit } := by
  have hget : ∀ p, AuthorityUnit.get { u.mapRecords f with limit := limit } p = f (u.get p) := fun _ => get_mapRecords
  refine ⟨fun p q hp hq => ?_, ?_, fun p => hget p ▸ hcounts _ (hu.counts p), hlimit⟩
  · rw [hget] at hp hq
    rw [hget] at hq
    have hp' := (hrole (u.get p)).resolve_right hp
    have hq' := (hrole (u.get q)).resolve_right (hq ▸ hp)
    exact hu.oneEach p q (hp' ▸ hp) (hq' ▸ hp' ▸ hq)
  · rcases hrole u.s with h | h
    · exact h ▸ hu.neverS
    · exact h ▸ nofun

end Law

/-! ## Handover: a reserve becomes holder (R148, R150) -/

section Promotion

variable {r : PortRecord} {u : AuthorityUnit} {q : Port}

theorem promoted_of_reserve (h : r.role = .reserve) : r.promoted = ⟨.holder, 0⟩ := by
  rw [PortRecord.promoted, h]

theorem promoted_of_not (h : r.role ≠ .reserve) : r.promoted = r := by
  rw [PortRecord.promoted]
  cases hr : r.role with
  | reserve => exact absurd hr h
  | idle | holder => rfl

theorem promoted_not_reserve : r.promoted.role ≠ .reserve := by
  by_cases h : r.role = .reserve
  · simp [promoted_of_reserve h]
  · rwa [promoted_of_not h]

/-- The handover from a unit without a holder restores the whole law. -/
theorem promoted_lawful (hu : Sound u) (hnone : ∀ p, (u.get p).role ≠ .holder) :
    (u.mapRecords PortRecord.promoted).Lawful := by
  have hrole : ∀ {p}, (u.get p).promoted.role ≠ .idle → (u.get p).role = .reserve := fun {p} hp => by
    by_contra h
    rw [promoted_of_not h] at hp
    cases hr : (u.get p).role with
    | idle => exact hp hr
    | holder => exact hnone p hr
    | reserve => exact h hr
  refine lawful_iff.2 ⟨⟨fun p q hp hq => ?_, promoted_not_reserve, fun p => ?_, hu.limitRange⟩, fun p hp => ?_⟩
  · rw [get_mapRecords] at hp hq
    rw [get_mapRecords] at hq
    have hpr := hrole hp
    exact hu.oneEach p q (by simp [hpr]) ((hrole (hq ▸ hp)).trans hpr.symm)
  · rw [get_mapRecords, mapRecords_limit]
    by_cases h : (u.get p).role = .reserve
    · rw [promoted_of_reserve h]
      exact countFits_zero hu.limitRange.1 _
    · rw [promoted_of_not h]
      exact hu.counts p
  · exact absurd (get_mapRecords ▸ hp) promoted_not_reserve

theorem mapRecords_promoted_of_reserve (hq : (u.get q).role = .reserve)
    (honly : ∀ p, (u.get p).role = .reserve → p = q) : u.mapRecords PortRecord.promoted = u.set q ⟨.holder, 0⟩ := by
  refine unit_ext (fun p => ?_) (by rw [mapRecords_limit, set_limit])
  rw [get_mapRecords, get_set]
  split_ifs with hp
  · rw [hp, promoted_of_reserve hq]
  · rw [promoted_of_not (mt (honly p) hp)]

theorem mapRecords_promoted_of_none (h : ∀ p, (u.get p).role ≠ .reserve) : u.mapRecords PortRecord.promoted = u :=
  unit_ext (fun p => get_mapRecords.trans (promoted_of_not (h p))) rfl

end Promotion

/-! ## RELEASE: the records after it (R148) -/

section Released

variable {u : AuthorityUnit} {p q : Port}

theorem released_of_idle (h : (u.get p).role = .idle) : u.released p = u := by
  rw [AuthorityUnit.released, h]

theorem released_of_reserve (h : (u.get p).role = .reserve) : u.released p = u.set p ⟨.idle, 0⟩ := by
  rw [AuthorityUnit.released, h]
  rfl

theorem released_of_holder (h : (u.get p).role = .holder) :
    u.released p = (u.set p ⟨.idle, 0⟩).mapRecords PortRecord.promoted := by
  rw [AuthorityUnit.released, h]
  rfl

/-- A reserve is reserve still when another port has become idle. -/
theorem get_set_reserve (hp : (u.get p).role ≠ .reserve) (q : Port) :
    ((u.set p ⟨.idle, 0⟩).get q).role = .reserve ↔ (u.get q).role = .reserve := by
  rw [get_set]
  split_ifs with h
  · exact ⟨nofun, fun hq => absurd (h ▸ hq) hp⟩
  · rfl

theorem released_to_reserve (hu : Sound u) (hp : (u.get p).role = .holder) (hq : (u.get q).role = .reserve) :
    u.released p = (u.set p ⟨.idle, 0⟩).set q ⟨.holder, 0⟩ := by
  have hreserve := get_set_reserve (u := u) (p := p) (by simp [hp])
  rw [released_of_holder hp]
  exact mapRecords_promoted_of_reserve ((hreserve q).2 hq) fun q' hq' =>
    hu.oneEach q q' (by simp [hq]) (((hreserve q').1 hq').trans hq.symm)

theorem released_to_none (hp : (u.get p).role = .holder) (hnone : ∀ q, (u.get q).role ≠ .reserve) :
    u.released p = u.set p ⟨.idle, 0⟩ := by
  rw [released_of_holder hp]
  exact mapRecords_promoted_of_none fun q => mt (get_set_reserve (by simp [hp]) q).1 (hnone q)

/-- Authority released leaves no reserve: there was none, or it is the new holder. -/
theorem released_reserve (hp : (u.get p).role = .holder) : (u.released p).reserve = none := by
  rw [released_of_holder hp]
  exact portWith_eq_none.2 fun q => by
    rw [get_mapRecords]
    exact promoted_not_reserve

theorem released_lawful (hu : u.Lawful) (p : Port) : (u.released p).Lawful := by
  have hsound := (lawful_iff.1 hu).1
  cases h : (u.get p).role with
  | idle => rwa [released_of_idle h]
  | reserve =>
    rw [released_of_reserve h]
    exact set_lawful hu (absurd rfl) nofun (by simp [h]) nofun
  | holder =>
    rw [released_of_holder h]
    exact promoted_lawful (set_sound hsound (absurd rfl) nofun)
      (portWith_eq_none.1 (portWith_vacated hsound h (by decide)))

end Released

/-! ## The tick: the records after it (R150) -/

section Tick

variable {r : PortRecord} {u : AuthorityUnit} {limit : Nat} {p : Port}

theorem ticked_of_idle (h : r.role = .idle) : r.ticked limit = r := if_pos h

theorem ticked_of_lapse (h : r.role ≠ .idle) (hl : limit ≤ r.count + 1) : r.ticked limit = ⟨.idle, 0⟩ := by
  rw [PortRecord.ticked, if_neg h, if_pos (by simp [PortRecord.lapses, h, hl])]
  rfl

theorem ticked_of_survival (h : r.role ≠ .idle) (hl : r.count + 1 < limit) :
    r.ticked limit = ⟨r.role, r.count + 1⟩ := by
  rw [PortRecord.ticked, if_neg h, if_neg (by simp [PortRecord.lapses, hl])]

/-- What a tick can do to a record: nothing to an idle one; a record with a role lapses or has its count raised. -/
theorem ticked_cases (limit : Nat) (r : PortRecord) :
    r.role = .idle ∧ r.ticked limit = r
      ∨ r.role ≠ .idle ∧ limit ≤ r.count + 1 ∧ r.ticked limit = ⟨.idle, 0⟩
      ∨ r.role ≠ .idle ∧ r.count + 1 < limit ∧ r.ticked limit = ⟨r.role, r.count + 1⟩ := by
  by_cases h : r.role = .idle
  · exact Or.inl ⟨h, ticked_of_idle h⟩
  · rcases Nat.lt_or_ge (r.count + 1) limit with hl | hl
    · exact Or.inr (Or.inr ⟨h, hl, ticked_of_survival h hl⟩)
    · exact Or.inr (Or.inl ⟨h, hl, ticked_of_lapse h hl⟩)

theorem ticked_role (limit : Nat) (r : PortRecord) :
    (r.ticked limit).role = r.role ∨ (r.ticked limit).role = .idle := by
  rcases ticked_cases limit r with ⟨-, h⟩ | ⟨-, -, h⟩ | ⟨-, -, h⟩ <;> simp [h]

theorem ticked_countFits (h : CountFits limit r) : CountFits limit (r.ticked limit) := by
  rcases ticked_cases limit r with ⟨-, ht⟩ | ⟨-, -, ht⟩ | ⟨hr, hl, ht⟩
  · rwa [ht]
  · rw [ht]
    exact ⟨absurd rfl, fun _ => rfl⟩
  · rw [ht]
    exact ⟨fun _ => hl, fun hi => absurd hi hr⟩

/-- A port that holds a role after the raise held it before, and its count stayed below the limit. -/
theorem ticked_survivor {role : Role} (hr : role ≠ .idle) (h : (r.ticked limit).role = role) :
    r.role = role ∧ r.count + 1 < limit := by
  rcases ticked_cases limit r with ⟨hi, ht⟩ | ⟨-, -, ht⟩ | ⟨-, hl, ht⟩
  · rw [ht] at h
    exact absurd (h.symm.trans hi) hr
  · rw [ht] at h
    exact absurd h.symm hr
  · rw [ht] at h
    exact ⟨h, hl⟩

theorem lapsing_iff {role : Role} (h : role ≠ .idle) : u.lapsing role = true ↔ u.Lapsing role := by
  rw [AuthorityUnit.lapsing, anyRecord_iff]
  refine exists_congr fun p => ?_
  simp only [PortRecord.lapses, Bool.and_eq_true, decide_eq_true_eq]
  exact ⟨fun ⟨hr, _, hl⟩ => ⟨hr, hl⟩, fun ⟨hr, hl⟩ => ⟨hr, hr ▸ h, hl⟩⟩

theorem reserveSurvives_iff : u.reserveSurvives = true ↔ u.Surviving .reserve := by
  rw [AuthorityUnit.reserveSurvives, anyRecord_iff]
  refine exists_congr fun p => ?_
  simp only [PortRecord.lapses, Bool.and_eq_true, Bool.not_eq_true', Bool.and_eq_false_iff, decide_eq_true_eq,
    decide_eq_false_iff_not, not_le, not_not]
  exact and_congr_right fun hr => ⟨fun h => h.resolve_left (by simp [hr]), Or.inr⟩

theorem handsOver_iff : u.handsOver = true ↔ u.Lapsing .holder ∧ u.Surviving .reserve := by
  rw [AuthorityUnit.handsOver, Bool.and_eq_true, lapsing_iff (by decide), reserveSurvives_iff]

theorem ticked_of_handover (h : u.Lapsing .holder ∧ u.Surviving .reserve) :
    u.ticked = (u.mapRecords (PortRecord.ticked u.limit)).mapRecords PortRecord.promoted :=
  if_pos (handsOver_iff.2 h)

theorem ticked_of_no_handover (h : ¬ (u.Lapsing .holder ∧ u.Surviving .reserve)) :
    u.ticked = u.mapRecords (PortRecord.ticked u.limit) :=
  if_neg (mt handsOver_iff.1 h)

theorem ticked_lawful (hu : u.Lawful) : u.ticked.Lawful := by
  have hsound : Sound (u.mapRecords (PortRecord.ticked u.limit)) :=
    mapRecords_sound (lawful_iff.1 hu).1 (ticked_role _) (fun _ => ticked_countFits) hu.limitRange
  by_cases h : u.Lapsing .holder ∧ u.Surviving .reserve
  · obtain ⟨q, hq, hlapse⟩ := h.1
    rw [ticked_of_handover h]
    refine promoted_lawful hsound fun p hp => ?_
    obtain ⟨hp, hl⟩ := ticked_survivor (by decide) (get_mapRecords ▸ hp)
    rw [hu.oneHolder p q hp hq] at hl
    omega
  · rw [ticked_of_no_handover h]
    refine lawful_iff.2 ⟨hsound, fun p hp => ?_⟩
    have hp' := ticked_survivor (by decide) (get_mapRecords ▸ hp)
    obtain ⟨q, hq⟩ := hu.reserveBesideHolder p hp'.1
    have hql : (u.get q).count + 1 < u.limit := Nat.lt_of_not_le fun hl => h ⟨⟨q, hq, hl⟩, p, hp'⟩
    exact ⟨q, by rw [get_mapRecords, ticked_of_survival (by simp [hq]) hql, hq]⟩

end Tick

end Sys2Proof.Proofs.Authority

/-! # Authority: CLAIM, RESERVE, RELEASE and KEEPALIVE -/

namespace Sys2Proof.Proofs.Authority

open Sys2Proof Sys2Proof.Machine Sys2Proof.Proofs.ChannelPlan Sys2Proof.Proofs.Licence

/-! ## The DONE of an authority request (R143) -/

section Stand

variable {u : AuthorityUnit} {p : Port} {r : Role} {s : State} {holder reserve : Option Port}

/-- A request that leaves its port's count at 0 is answered with the port's role, the holder and the reserve. -/
theorem stand_of_zero (h : u.get p = ⟨r, 0⟩) (hh : u.holder = holder) (hr : u.reserve = reserve) :
    s.stand u p = (.done [r.code, 0, portCodeOr holder, portCodeOr reserve], { s with authority := u }) := by
  rw [State.stand, AuthorityUnit.standing, h, hh, hr]
  rfl

/-- A port's role renewed: holder and reserve stay who they are. -/
theorem stand_renewed (h : (s.authority.get p).role = r) : s.stand (s.authority.set p ⟨r, 0⟩) p =
    (.done [r.code, 0, portCodeOr s.authority.holder, portCodeOr s.authority.reserve],
      { s with authority := s.authority.set p ⟨r, 0⟩ }) :=
  stand_of_zero get_set_same (portWith_set_of_iff (by rw [h])) (portWith_set_of_iff (by rw [h]))

end Stand

/-! ## CLAIM (R146) -/

section Claim

variable {p : Port} {tag : Option Byte} {s s' t : State} {x : Reply}

theorem exec_claim (h : Asked .authority p tag .claim s s') (hx : claimAuthority p s' = (x, t)) :
    exec (.claim p) s = .next (t.answer p tag x) :=
  congrArg Host.Outcome.next (serveOnly_answers h hx)

theorem claimAuthority_of_holder (h : (s.authority.get p).role = .holder) : claimAuthority p s =
    (.done [1, 0, portCodeOr s.authority.holder, portCodeOr s.authority.reserve],
      { s with authority := s.authority.set p ⟨.holder, 0⟩ }) := by
  rw [claimAuthority, h]
  exact stand_renewed h

theorem claimAuthority_of_idle (h : (s.authority.get p).role = .idle) (hnone : s.authority.holder = none) :
    claimAuthority p s = (.done [1, 0, portCode p, portCodeOr s.authority.reserve],
      { s with authority := s.authority.set p ⟨.holder, 0⟩ }) := by
  rw [claimAuthority, h, hnone]
  exact stand_of_zero get_set_same (portWith_set_of_none hnone rfl) (portWith_set_of_iff (by simp [h]))

theorem claimAuthority_held (h : (s.authority.get p).role ≠ .holder)
    (hi : (s.authority.get p).role = .idle → s.authority.holder ≠ none) :
    claimAuthority p s = (.plain .held .holderPresent, s) := by
  unfold claimAuthority
  split
  · exact absurd ‹_› h
  · exact absurd ‹_› (hi ‹_›)
  · rfl

theorem claimAuthority_lawful (hs : s.authority.Lawful) (p : Port) : (claimAuthority p s).2.authority.Lawful := by
  by_cases h : (s.authority.get p).role = .holder
  · rw [claimAuthority_of_holder h]
    exact renew_lawful hs (by decide) h
  by_cases hi : (s.authority.get p).role = .idle ∧ s.authority.holder = none
  · rw [claimAuthority_of_idle hi.1 hi.2]
    exact set_lawful hs (fun _ q _ => portWith_eq_none.1 hi.2 q) nofun (fun _ => rfl) nofun
  · rw [claimAuthority_held h fun hidle hnone => hi ⟨hidle, hnone⟩]
    exact hs

end Claim

/-- Settles O13: the holder keeps its role and an idle port takes it where no port holds it; else HELD. -/
theorem claimActsByRole : Obligations.ClaimActsByRole := by
  intro p tag s s' h
  obtain ⟨l, rfl⟩ := asked_from h
  exact ⟨fun hi hnone => exec_claim h (claimAuthority_of_idle (s := s') hi hnone),
    fun hh => exec_claim h (claimAuthority_of_holder (s := s') hh),
    fun hh hheld => exec_claim h (claimAuthority_held (s := s') hh fun _ => hheld)⟩

/-! ## RESERVE (R147) -/

section Reserve

variable {p : Port} {tag : Option Byte} {s s' t : State} {x : Reply}

theorem exec_reserve (h : Asked .authority p tag .reserve s s') (hx : reserveAuthority p s' = (x, t)) :
    exec (.reserve p) s = .next (t.answer p tag x) :=
  congrArg Host.Outcome.next (serveOnly_answers h hx)

theorem reserveAuthority_of_portS (h : p = .s) : reserveAuthority p s = (.plain .role .reserveNotPermitted, s) :=
  if_pos h

variable (hp : p ≠ .s)

include hp

theorem reserveAuthority_of_reserve (h : (s.authority.get p).role = .reserve) :
    reserveAuthority p s = (.done [2, 0, portCodeOr s.authority.holder, portCodeOr s.authority.reserve],
      { s with authority := s.authority.set p ⟨.reserve, 0⟩ }) := by
  rw [reserveAuthority, if_neg hp, h]
  exact stand_renewed h

theorem reserveAuthority_of_holder (h : (s.authority.get p).role = .holder) :
    reserveAuthority p s = (.plain .state .alreadyHolder, s) := by
  rw [reserveAuthority, if_neg hp, h]
  rfl

theorem reserveAuthority_of_no_holder (h : (s.authority.get p).role = .idle) (hnone : s.authority.holder = none) :
    reserveAuthority p s = (.plain .state .noHolder, s) := by
  rw [reserveAuthority, if_neg hp, h]
  exact if_pos hnone

theorem reserveAuthority_held (h : (s.authority.get p).role = .idle) (hh : s.authority.holder ≠ none)
    (hr : s.authority.reserve ≠ none) : reserveAuthority p s = (.plain .held .reservePresent, s) := by
  rw [reserveAuthority, if_neg hp, h]
  exact (if_neg hh).trans (if_pos hr)

theorem reserveAuthority_taken (h : (s.authority.get p).role = .idle) (hh : s.authority.holder ≠ none)
    (hnone : s.authority.reserve = none) :
    reserveAuthority p s = (.done [2, 0, portCodeOr s.authority.holder, portCode p],
      { s with authority := s.authority.set p ⟨.reserve, 0⟩ }) := by
  rw [reserveAuthority, if_neg hp, h]
  exact (if_neg hh).trans ((if_neg (not_not_intro hnone)).trans
    (stand_of_zero get_set_same (portWith_set_of_iff (by simp [h])) (portWith_set_of_none hnone rfl)))

omit hp

theorem reserveAuthority_lawful (hs : s.authority.Lawful) (p : Port) : (reserveAuthority p s).2.authority.Lawful := by
  by_cases hp : p = .s
  · rw [reserveAuthority_of_portS hp]
    exact hs
  cases h : (s.authority.get p).role with
  | reserve =>
    rw [reserveAuthority_of_reserve hp h]
    exact renew_lawful hs (by decide) h
  | holder =>
    rw [reserveAuthority_of_holder hp h]
    exact hs
  | idle =>
    cases hh : s.authority.holder with
    | none =>
      rw [reserveAuthority_of_no_holder hp h hh]
      exact hs
    | some q =>
      by_cases hr : s.authority.reserve = none
      · rw [reserveAuthority_taken hp h (by simp [hh]) hr]
        exact set_lawful hs (fun _ q _ => portWith_eq_none.1 hr q) (fun hps => absurd hps hp) (by simp [h])
          fun _ => ⟨q, portWith_some hh⟩
      · rw [reserveAuthority_held hp h (by simp [hh]) hr]
        exact hs

end Reserve

/-- Settles O14: the six steps in their order; the role given or renewed is the port's alone. -/
theorem reserveExaminedInOrder : Obligations.ReserveExaminedInOrder := by
  intro p tag s s' h
  obtain ⟨l, rfl⟩ := asked_from h
  exact ⟨fun hp => exec_reserve h (reserveAuthority_of_portS hp),
    fun hp hr => exec_reserve h (reserveAuthority_of_reserve (s := s') hp hr),
    fun hp hr => exec_reserve h (reserveAuthority_of_holder (s := s') hp hr),
    fun hp hr hnone => exec_reserve h (reserveAuthority_of_no_holder (s := s') hp hr hnone),
    fun hp hr hh hres => exec_reserve h (reserveAuthority_held (s := s') hp hr hh hres),
    fun hp hr hh hnone => exec_reserve h (reserveAuthority_taken (s := s') hp hr hh hnone)⟩

/-! ## RELEASE (R148) -/

section Release

variable {p q : Port} {tag : Option Byte} {s s' t : State} {x : Reply}

theorem exec_release (h : Asked .authority p tag .release s s') (hx : releaseAuthority p s' = (x, t)) :
    exec (.release p) s = .next (t.answer p tag x) :=
  congrArg Host.Outcome.next (serveOnly_answers h hx)

theorem releaseAuthority_reports (h : (s.authority.get p).role = .holder) (hr : s.authority.reserve ≠ none) :
    releaseAuthority p s = ((s.stand (s.authority.released p) p).1,
      State.report .authorityHandover (s.stand (s.authority.released p) p).2) :=
  if_pos ⟨h, hr⟩

theorem releaseAuthority_silent (h : (s.authority.get p).role = .holder → s.authority.reserve = none) :
    releaseAuthority p s = s.stand (s.authority.released p) p :=
  if_neg fun ⟨hh, hr⟩ => hr (h hh)

theorem releaseAuthority_to_reserve (hu : Sound s.authority) (h : (s.authority.get p).role = .holder)
    (hq : (s.authority.get q).role = .reserve) : releaseAuthority p s = (.done [0, 0, portCode q, 255],
      { s with
        authority := (s.authority.set p ⟨.idle, 0⟩).set q ⟨.holder, 0⟩
        transit := s.transit ++ [.occurrence SiteKind.authorityHandover.slot] }) := by
  have hreserve : s.authority.reserve = some q := portWith_of_sound hu hq (by decide)
  have hpq : p ≠ q := by
    rintro rfl
    exact absurd (h.symm.trans hq) (by decide)
  have hidle : (s.authority.released p).get p = ⟨.idle, 0⟩ := by
    rw [released_to_reserve hu h hq, get_set_other hpq, get_set_same]
  have hholder : (s.authority.released p).holder = some q := by
    rw [released_to_reserve hu h hq]
    exact portWith_set_of_none (portWith_vacated hu h (by decide)) rfl
  rw [releaseAuthority_reports h (by simp [hreserve]), stand_of_zero hidle hholder (released_reserve h),
    released_to_reserve hu h hq]
  rfl

theorem releaseAuthority_to_none (hu : Sound s.authority) (h : (s.authority.get p).role = .holder)
    (hnone : ∀ q, (s.authority.get q).role ≠ .reserve) : releaseAuthority p s = (.done [0, 0, 255, 255],
      { s with authority := s.authority.set p ⟨.idle, 0⟩ }) := by
  rw [releaseAuthority_silent fun _ => portWith_eq_none.2 hnone, released_to_none h hnone]
  exact stand_of_zero get_set_same (portWith_vacated hu h (by decide))
    ((portWith_set_of_iff (by simp [h])).trans (portWith_eq_none.2 hnone))

theorem releaseAuthority_of_reserve (hu : Sound s.authority) (h : (s.authority.get p).role = .reserve) :
    releaseAuthority p s = (.done [0, 0, portCodeOr s.authority.holder, 255],
      { s with authority := s.authority.set p ⟨.idle, 0⟩ }) := by
  rw [releaseAuthority_silent (by simp [h]), released_of_reserve h]
  exact stand_of_zero get_set_same (portWith_set_of_iff (by simp [h])) (portWith_vacated hu h (by decide))

theorem releaseAuthority_of_idle (hu : s.authority.Lawful) (h : (s.authority.get p).role = .idle) :
    releaseAuthority p s
      = (.done [0, 0, portCodeOr s.authority.holder, portCodeOr s.authority.reserve], s) := by
  rw [releaseAuthority_silent (by simp [h]), released_of_idle h]
  exact stand_of_zero (get_of_idle hu h) rfl rfl

theorem releaseAuthority_lawful (hs : s.authority.Lawful) (p : Port) :
    (releaseAuthority p s).2.authority.Lawful := by
  have hauthority : (releaseAuthority p s).2.authority = s.authority.released p := by
    unfold releaseAuthority
    split <;> rfl
  rw [hauthority]
  exact released_lawful hs p

end Release

/-- Settles O15: the records after the release by the role given up; what is handed over is reported. -/
theorem releaseHandsAuthorityToReserve : Obligations.ReleaseHandsAuthorityToReserve := by
  intro p tag s s' hu h
  obtain ⟨l, rfl⟩ := asked_from h
  have hsound : Sound s'.authority := (lawful_iff.1 hu).1
  exact ⟨fun q hh hq => exec_release h (releaseAuthority_to_reserve hsound hh hq),
    fun hh hnone => exec_release h (releaseAuthority_to_none hsound hh hnone),
    fun hr => exec_release h (releaseAuthority_of_reserve hsound hr),
    fun hi => exec_release h (releaseAuthority_of_idle (s := s') hu hi)⟩

/-! ## KEEPALIVE (R149) -/

section Keepalive

variable {p : Port} {tag : Option Byte} {s s' t : State} {x : Reply}

theorem exec_keepalive (h : Asked .authority p tag .keepalive s s') (hx : keepAuthority p s' = (x, t)) :
    exec (.keepalive p) s = .next (t.answer p tag x) :=
  congrArg Host.Outcome.next (serveOnly_answers h hx)

theorem keepAuthority_of_idle (h : (s.authority.get p).role = .idle) :
    keepAuthority p s = (.plain .role .noRole, s) := if_pos h

theorem keepAuthority_of_role (h : (s.authority.get p).role ≠ .idle) :
    keepAuthority p s = (.done [(s.authority.get p).role.code, 0, portCodeOr s.authority.holder,
        portCodeOr s.authority.reserve], { s with authority := s.authority.set p ⟨(s.authority.get p).role, 0⟩ }) :=
  (if_neg h).trans (stand_renewed rfl)

theorem keepAuthority_lawful (hs : s.authority.Lawful) (p : Port) : (keepAuthority p s).2.authority.Lawful := by
  by_cases h : (s.authority.get p).role = .idle
  · rw [keepAuthority_of_idle h]
    exact hs
  · rw [keepAuthority_of_role h]
    exact renew_lawful hs h rfl

end Keepalive

/-- Settles O16: a port with a role keeps it with count 0, so each role stays with its port. -/
theorem keepaliveRenewsRequestingPort : Obligations.KeepaliveRenewsRequestingPort := by
  intro p tag s s' h
  obtain ⟨l, rfl⟩ := asked_from h
  exact ⟨fun hr => exec_keepalive h (keepAuthority_of_role (s := s') hr),
    fun hi => exec_keepalive h (keepAuthority_of_idle (s := s') hi)⟩

end Sys2Proof.Proofs.Authority

/-! # Authority: the tick, KEEPALIVE_LIMIT and the law kept -/

namespace Sys2Proof.Proofs.Authority

open Sys2Proof Sys2Proof.Machine Sys2Proof.Proofs.ChannelPlan

/-! ## The tick: what becomes of each port, and what is reported (R150, R151) -/

section Tick

variable {u : AuthorityUnit} {p : Port} {lapsed survives reserveLapsed : Bool}

theorem ticked_limit (u : AuthorityUnit) : u.ticked.limit = u.limit := by
  unfold AuthorityUnit.ticked
  split <;> rfl

/-- A port that is not reserve after the raise is as the raise leaves it, handover or not. -/
theorem ticked_get_of_not (h : ((u.get p).ticked u.limit).role ≠ .reserve) :
    u.ticked.get p = (u.get p).ticked u.limit := by
  by_cases hover : u.Lapsing .holder ∧ u.Surviving .reserve
  · rw [ticked_of_handover hover, get_mapRecords, get_mapRecords, promoted_of_not h]
  · rw [ticked_of_no_handover hover, get_mapRecords]

theorem ticked_get_idle (h : (u.get p).role = .idle) : u.ticked.get p = u.get p := by
  have ht := ticked_of_idle (limit := u.limit) h
  rw [ticked_get_of_not (by simp [ht, h]), ht]

theorem ticked_get_lapsed (h : (u.get p).role ≠ .idle) (hl : u.limit ≤ (u.get p).count + 1) :
    u.ticked.get p = ⟨.idle, 0⟩ := by
  have ht := ticked_of_lapse h hl
  rw [ticked_get_of_not (by simp [ht]), ht]

theorem ticked_get_holder (h : (u.get p).role = .holder) (hl : (u.get p).count + 1 < u.limit) :
    u.ticked.get p = ⟨.holder, (u.get p).count + 1⟩ := by
  have ht := ticked_of_survival (by simp [h]) hl
  rw [ticked_get_of_not (by simp [ht, h]), ht, h]

theorem ticked_get_promoted (h : (u.get p).role = .reserve) (hl : (u.get p).count + 1 < u.limit)
    (hlapse : u.Lapsing .holder) : u.ticked.get p = ⟨.holder, 0⟩ := by
  rw [ticked_of_handover ⟨hlapse, p, h, hl⟩, get_mapRecords, get_mapRecords, ticked_of_survival (by simp [h]) hl]
  exact promoted_of_reserve h

theorem ticked_get_reserve (h : (u.get p).role = .reserve) (hl : (u.get p).count + 1 < u.limit)
    (hlapse : ¬ u.Lapsing .holder) : u.ticked.get p = ⟨.reserve, (u.get p).count + 1⟩ := by
  rw [ticked_of_no_handover (mt And.left hlapse), get_mapRecords, ticked_of_survival (by simp [h]) hl, h]

theorem lapsing_false {role : Role} (h : role ≠ .idle) (hl : ¬ u.Lapsing role) : u.lapsing role = false :=
  Bool.eq_false_iff.2 (mt (lapsing_iff h).1 hl)

/-- A reserve that lapses is the only one, so none survives. -/
theorem not_surviving_of_lapsing (hu : u.Lawful) (h : u.Lapsing .reserve) : ¬ u.Surviving .reserve := by
  rintro ⟨p, hp, hpl⟩
  obtain ⟨q, hq, hql⟩ := h
  rw [hu.oneReserve p q hp hq] at hpl
  omega

theorem tickReports_eq (u : AuthorityUnit) : u.tickReports = (if u.lapsing .holder then [.authorityLapsed] else [])
    ++ (if u.lapsing .holder && u.reserveSurvives then [.authorityHandover] else [])
    ++ (if u.lapsing .reserve then [.reserveLapsed] else []) := rfl

theorem tickReports_none (hh : ¬ u.Lapsing .holder) (hr : ¬ u.Lapsing .reserve) : u.tickReports = [] := by
  rw [tickReports_eq, lapsing_false (by decide) hh, lapsing_false (by decide) hr]
  rfl

theorem tickReports_lapse (hh : u.Lapsing .holder) (hr : ¬ u.Lapsing .reserve) (hs : ¬ u.Surviving .reserve) :
    u.tickReports = [.authorityLapsed] := by
  rw [tickReports_eq, (lapsing_iff (by decide)).2 hh, lapsing_false (by decide) hr,
    Bool.eq_false_iff.2 (mt reserveSurvives_iff.1 hs)]
  rfl

theorem tickReports_handover (hu : u.Lawful) (hh : u.Lapsing .holder) (hs : u.Surviving .reserve) :
    u.tickReports = [.authorityLapsed, .authorityHandover] := by
  rw [tickReports_eq, (lapsing_iff (by decide)).2 hh, reserveSurvives_iff.2 hs,
    lapsing_false (by decide) fun hr => not_surviving_of_lapsing hu hr hs]
  rfl

theorem tickReports_both (hu : u.Lawful) (hh : u.Lapsing .holder) (hr : u.Lapsing .reserve) :
    u.tickReports = [.authorityLapsed, .reserveLapsed] := by
  rw [tickReports_eq, (lapsing_iff (by decide)).2 hh, (lapsing_iff (by decide)).2 hr,
    Bool.eq_false_iff.2 (mt reserveSurvives_iff.1 (not_surviving_of_lapsing hu hr))]
  rfl

theorem tickReports_reserve (hh : ¬ u.Lapsing .holder) (hr : u.Lapsing .reserve) :
    u.tickReports = [.reserveLapsed] := by
  rw [tickReports_eq, lapsing_false (by decide) hh, (lapsing_iff (by decide)).2 hr]
  rfl

theorem someLapse_of {role : Role} (hr : role ≠ .idle) (h : u.Lapsing role) : u.someLapse = true := by
  obtain ⟨p, hp, hl⟩ := h
  exact anyRecord_iff.2 ⟨p, by simp [PortRecord.lapses, hp, hr, hl]⟩

end Tick

section ExecTick

variable {n : Word16} {s s' : State}

theorem exec_authorityTick (h : s.take (Message.isTick .authority) = some (.tick .authority n, s')) :
    exec .authorityTick s = .next s'.authorityTick :=
  congrArg Host.Outcome.next (takeTick_some h)

/-- Where some port lapses KEEPALIVE_LAPSE is the tick (log entry 4). -/
theorem exec_keepaliveLapse_due (h : s.authority.someLapse = true) : exec .keepaliveLapse s = exec .authorityTick s :=
  congrArg Host.Outcome.next (if_pos h)

theorem authorityTick_transit {kinds : List SiteKind} (h : s.authority.tickReports = kinds) :
    s.authorityTick.transit = s.transit ++ kinds.map fun k => .occurrence k.slot := by
  rw [State.authorityTick, h]
  rfl

end ExecTick

/-- Settles O17: each port by its role and raised count, each report by who lapses and who survives. -/
theorem authorityTickRaisesCountsAndLapses : Obligations.AuthorityTickRaisesCountsAndLapses := by
  intro n s s' hu h
  have hexec := exec_authorityTick h
  have hlapse := exec_keepaliveLapse_due (s := s)
  obtain ⟨l, rfl⟩ := take_from h
  refine ⟨_, hexec, rfl, ticked_limit s'.authority, fun p => ticked_get_idle, fun p => ticked_get_lapsed,
    fun p => ticked_get_holder, fun p hr hl => ⟨ticked_get_promoted hr hl, ticked_get_reserve hr hl⟩,
    fun hh hr => ?_, fun hh hnone => ?_, fun hh hs => ?_, fun hh hr => ?_, fun hh hr => ?_, fun hor => hlapse ?_⟩
  · exact (authorityTick_transit (s := s') (tickReports_none hh hr)).trans (List.append_nil _)
  · exact authorityTick_transit (s := s')
      (tickReports_lapse hh (fun ⟨q, hq, _⟩ => hnone q hq) fun ⟨q, hq, _⟩ => hnone q hq)
  · exact authorityTick_transit (s := s') (tickReports_handover hu hh hs)
  · exact authorityTick_transit (s := s') (tickReports_both hu hh hr)
  · exact authorityTick_transit (s := s') (tickReports_reserve hh hr)
  · exact hor.elim (someLapse_of (by decide)) (someLapse_of (by decide))

/-! ## KEEPALIVE_LIMIT (R155) -/

section Limit

variable {p : Port} {tag : Option Byte} {value : List Byte} {v : Byte} {r : PortRecord} {s s' t : State} {x : Reply}

theorem exec_configureKeepaliveLimit (h : Asked .authority p tag (.configure .keepaliveLimit value) s s')
    (hx : holderOnly p (setKeepaliveLimit value) s' = (x, t)) :
    exec (.configureKeepaliveLimit p) s = .next (t.answer p tag x) :=
  congrArg Host.Outcome.next (configureItem_holderOnly (i := .keepaliveLimit) h hx)

theorem setKeepaliveLimit_refused (h : ¬ (2 ≤ beNat value ∧ beNat value ≤ 255)) :
    setKeepaliveLimit value s = (.plain .range .keepaliveLimit, s) := if_neg h

theorem setKeepaliveLimit_sets (h : 2 ≤ beNat value ∧ beNat value ≤ 255) : setKeepaliveLimit value s =
    (.done (0x03 :: value),
      { s with authority := { s.authority.mapRecords PortRecord.restarted with limit := beNat value } }) := if_pos h

theorem restarted_role (r : PortRecord) : r.restarted.role = r.role := by
  unfold PortRecord.restarted
  split <;> rfl

theorem restarted_countFits {limit new : Nat} (hnew : 2 ≤ new) (h : CountFits limit r) :
    CountFits new r.restarted := by
  unfold PortRecord.restarted
  split_ifs with hi
  · exact ⟨absurd hi, h.2⟩
  · exact countFits_zero hnew r.role

theorem setKeepaliveLimit_lawful (hs : s.authority.Lawful) (value : List Byte) :
    (setKeepaliveLimit value s).2.authority.Lawful := by
  by_cases h : 2 ≤ beNat value ∧ beNat value ≤ 255
  · rw [setKeepaliveLimit_sets h]
    refine lawful_iff.2 ⟨mapRecords_sound (lawful_iff.1 hs).1 (fun r => Or.inl (restarted_role r))
      (fun _ => restarted_countFits h.1) h, fun p hp => ?_⟩
    have hrole : ∀ q, ((s.authority.mapRecords PortRecord.restarted).get q).role = (s.authority.get q).role :=
      fun q => by rw [get_mapRecords, restarted_role]
    obtain ⟨q, hq⟩ := hs.reserveBesideHolder p ((hrole p).symm.trans hp)
    exact ⟨q, (hrole q).trans hq⟩
  · rw [setKeepaliveLimit_refused h]
    exact hs

theorem exec_readConfigKeepaliveLimit (h : Asked .authority p tag (.readConfig .keepaliveLimit []) s s') :
    exec (.readConfigKeepaliveLimit p) s
      = .next (s'.answer p tag (.done [0x03, BitVec.ofNat 8 s'.authority.limit])) := by
  rw [← natBytes_one]
  exact congrArg Host.Outcome.next (readItem_asked (i := .keepaliveLimit) h)

end Limit

/-- Settles O18: CONFIGURE by role, then by the range, then the limit set; READ CONFIG by its byte. -/
theorem keepaliveLimitConfiguredAndRead : Obligations.KeepaliveLimitConfiguredAndRead := by
  intro p tag s s'
  refine ⟨fun v h => ?_, fun h => ?_⟩
  · obtain ⟨l, rfl⟩ := asked_from h
    refine ⟨fun hh => exec_configureKeepaliveLimit h (holderOnly_of_not hh), fun hh hv => ?_, fun hh hv => ?_⟩
    · exact exec_configureKeepaliveLimit h ((holderOnly_of_holds (s := s') hh).trans
        (setKeepaliveLimit_refused (by rw [beNat_one]; omega)))
    · have hset := setKeepaliveLimit_sets (value := [v]) (s := s') (by rw [beNat_one]; have := v.isLt; omega)
      rw [beNat_one] at hset
      exact exec_configureKeepaliveLimit h ((holderOnly_of_holds (s := s') hh).trans hset)
  · rw [exec_readConfigKeepaliveLimit h]
    obtain ⟨l, rfl⟩ := asked_from h
    rfl

/-! ## The law kept by every command and every step (R144, R145, R155) -/

/-- The law is about the Authority Unit alone. -/
theorem calm_lawful : Calm fun s => s.authority.Lawful := ⟨fun _ _ h => h, fun _ _ h => h⟩

theorem authorityTick_lawful {s : State} (hs : s.authority.Lawful) :
    (takeTick .authority (fun _ => State.authorityTick) s).authority.Lawful :=
  takeTick_kept calm_lawful (fun _ _ => ticked_lawful) hs

/-- The Authority Unit's own commands. -/
theorem authority_keeps_lawful {c : Instr} {s t : State} (hs : s.authority.Lawful) (hc : blockOf c = .authority)
    (h : exec c s = .next t) : t.authority.Lawful := by
  cases c <;> first | (cases hc; done) | skip
  case claim p =>
    cases h
    exact serveOnly_kept calm_lawful (fun _ hs => claimAuthority_lawful hs p) hs
  case reserve p =>
    cases h
    exact serveOnly_kept calm_lawful (fun _ hs => reserveAuthority_lawful hs p) hs
  case release p =>
    cases h
    exact serveOnly_kept calm_lawful (fun _ hs => releaseAuthority_lawful hs p) hs
  case keepalive p =>
    cases h
    exact serveOnly_kept calm_lawful (fun _ hs => keepAuthority_lawful hs p) hs
  case authorityTick =>
    cases h
    exact authorityTick_lawful hs
  case keepaliveLapse =>
    cases h
    split
    · exact authorityTick_lawful hs
    · exact hs
  case configureKeepaliveLimit p =>
    cases h
    exact configureItem_kept calm_lawful (fun v _ hs => holderOnly_kept (P := fun s => s.authority.Lawful)
      (fun _ hs => setKeepaliveLimit_lawful hs v) hs) hs

theorem exec_keeps_lawful {c : Instr} {s t : State} (hs : s.authority.Lawful) (h : exec c s = .next t) :
    t.authority.Lawful := by
  by_cases hr : blockOf c = .reset
  · rcases reset_cases hr h with ⟨phase, rfl⟩ | rfl | ⟨pins, rfl⟩
    · exact authorityAtReset_lawful
    · exact hs
    · exact hs
  by_cases hc : blockOf c = .authority
  · exact authority_keeps_lawful hs hc h
  · rw [authority_other h hr hc]
    exact hs

/-- Settles O4: each command of the Authority Unit keeps the law, a reset restores it, no other command touches it. -/
theorem authorityLawKeptByEveryStep : Obligations.AuthorityLawKeptByEveryStep := fun _ _ =>
  step_keeps (P := fun s => s.authority.Lawful) (fun _ _ hs => hs) (fun _ hs _ => hs) fun _ _ _ => exec_keeps_lawful

end Sys2Proof.Proofs.Authority

/-! # The law of the Condition Table, kept by every step -/

namespace Sys2Proof.Proofs.Conditions

open Sys2Proof Sys2Proof.Machine Sys2Proof.Proofs.ChannelPlan

/-! ## The attention lines formed anew (R166, R167) -/

section Lines

variable {k l : ConditionTable} {p q : Port} {x : Attention}

theorem attention_setAttention : (k.setAttention p x).attention q = if q = p then x else k.attention q := by
  cases p <;> cases q <;> rfl

@[simp] theorem setAttention_slots : (k.setAttention p x).slots = k.slots := by cases p <;> rfl

/-- A table is its slots and the attention of its three ports. -/
theorem table_ext (hslots : k.slots = l.slots) (hattention : ∀ p, k.attention p = l.attention p) : k = l := by
  obtain ⟨slots, a, b, s⟩ := k
  obtain rfl : slots = l.slots := hslots
  obtain rfl : a = l.a := hattention .a
  obtain rfl : b = l.b := hattention .b
  obtain rfl : s = l.s := hattention .s
  rfl

@[simp] theorem formLines_slots : k.formLines.slots = k.slots := rfl

@[simp] theorem formLines_attention :
    k.formLines.attention p = { k.attention p with line := lineLevel k.slots p (k.attention p) } := by
  cases p <;> rfl

theorem unreadSlot_iff {slots : Vector Slot 75} {mask : Mask24} : unreadSlot slots mask p = true ↔
    ∃ i, (slots.get i).latched = true ∧ mask.getLsbD (kindOf i) = true ∧ (slots.get i).seenBy.has p = false := by
  simp [unreadSlot, and_assoc]

/-- Under EDGE a line is its latch; under LEVEL an unread latched slot of the mask asserts it too. -/
theorem lineLevel_iff {slots : Vector Slot 75} : lineLevel slots p x = true ↔ x.latch = true ∨ x.mode = .level ∧
    ∃ i, (slots.get i).latched = true ∧ x.mask.getLsbD (kindOf i) = true ∧ (slots.get i).seenBy.has p = false := by
  cases hm : x.mode with
  | edge => simp [lineLevel, hm]
  | level => simp [lineLevel, hm, unreadSlot_iff]

/-- The law is that every slot is lawful and every line stands as it would be formed. -/
theorem lawful_iff : k.Lawful ↔ (∀ i, (k.slots.get i).Lawful i)
    ∧ ∀ p, (k.attention p).line = lineLevel k.slots p (k.attention p) :=
  ⟨fun h => ⟨h.slots, fun p => Bool.eq_iff_iff.2 ((h.lines p).trans lineLevel_iff.symm)⟩,
    fun ⟨hslots, hlines⟩ => ⟨hslots, fun p => hlines p ▸ lineLevel_iff⟩⟩

theorem formLines_lawful (h : ∀ i, (k.slots.get i).Lawful i) : k.formLines.Lawful :=
  lawful_iff.2 ⟨h, fun p => by cases p <;> rfl⟩

/-- The lines of a lawful table, formed anew, stay as they are. -/
theorem formLines_of_lawful (h : k.Lawful) : k.formLines = k :=
  table_ext rfl fun p => by rw [formLines_attention, ← (lawful_iff.1 h).2 p]

/-- Another port's attention replaced in a lawful table leaves a port's line where it stands. -/
theorem setAttention_formLines_other (h : k.Lawful) (hq : q ≠ p) :
    (k.setAttention p x).formLines.attention q = k.attention q := by
  rw [formLines_attention, attention_setAttention, if_neg hq, setAttention_slots, ← (lawful_iff.1 h).2 q]

end Lines

/-! ## Slots that keep their law (R159, R160, R162, R163) -/

section Slots

variable {i : SlotNo} {t : Slot} {k : ConditionTable} {lines : Vector FaultLine 8} {p : Port}

/-- Occurrences count up to 255 and end a pending clear. -/
theorem slotOccurred_lawful (epoch : Word16) : (t.occurred epoch).Lawful i where
  unlatched h := nomatch h
  latched _ := ⟨rfl, le_min (Nat.le_add_left 1 _) (by decide)⟩
  occurrences := Nat.min_le_right _ _
  lineOnly h := nomatch h

/-- A latched slot stays lawful with another seen-by set. -/
theorem seenBy_lawful (m : PortSet) (h : t.Lawful i) (hl : t.latched = true) :
    Slot.Lawful i { t with seenBy := m } where
  unlatched hu := absurd (hl.symm.trans hu) (by decide)
  latched := h.latched
  occurrences := h.occurrences
  lineOnly := h.lineOnly

/-- A latched line slot stays lawful when it is made clear-pending. -/
theorem clearPending_lawful (h : t.Lawful i) (hl : t.latched = true) (hi : 67 ≤ i.val) :
    Slot.Lawful i { t with clearPending := true } where
  unlatched hu := absurd (hl.symm.trans hu) (by decide)
  latched := h.latched
  occurrences := h.occurrences
  lineOnly _ := hi

theorem lineSlot_inj {m n : Line} : lineSlot m = lineSlot n ↔ m = n := by
  simp [lineSlot, Fin.ext_iff]

theorem lineOfSlot_eq_some {n : Line} : lineOfSlot i = some n ↔ i = lineSlot n := by
  unfold lineOfSlot
  rw [Fin.ext_iff, show (lineSlot n).val = 67 + n.val from rfl]
  split
  · rw [chanOf_eq_some]
    omega
  · simp only [reduceCtorEq, false_iff]
    omega

/-- A line holds back its own slot alone (R163). -/
theorem heldByLine_iff : heldByLine lines i = true ↔ ∃ n, i = lineSlot n
    ∧ (lines.get n).config.sensitivity = .edgeAndLevel ∧ (lines.get n).asserted = true := by
  unfold heldByLine
  split
  · rename_i hnone
    refine ⟨nofun, fun ⟨n, hn, _⟩ => ?_⟩
    rw [lineOfSlot_eq_some.2 hn] at hnone
    cases hnone
  · rename_i n hn
    obtain rfl := lineOfSlot_eq_some.1 hn
    simp [lineSlot_inj]

theorem clearOne_lawful (h : t.Lawful i) : (clearOne lines p i t).2.Lawful i := by
  unfold clearOne
  split
  · rename_i hread
    split
    · rename_i hheld
      obtain ⟨n, rfl, -⟩ := heldByLine_iff.1 hheld
      exact clearPending_lawful h (Bool.and_eq_true_iff.1 hread).1 (Nat.le_add_right 67 n.val)
    · exact slotClear_lawful i
  · exact h

end Slots

/-- One slot replaced by a lawful one. -/
theorem put_lawful {slots : Vector Slot 75} {i : SlotNo} {t : Slot} (h : ∀ j, (slots.get j).Lawful j) (ht : t.Lawful i)
    (j : SlotNo) : ((put slots i t).get j).Lawful j := by
  rw [put_get]
  split
  · rename_i hij
    exact hij ▸ ht
  · exact h j

theorem clearAll_lawful {lines : Vector FaultLine 8} {p : Port} (is : List SlotNo) {slots : Vector Slot 75}
    (h : ∀ j, (slots.get j).Lawful j) (j : SlotNo) : ((clearAll lines p is slots).2.get j).Lawful j := by
  induction is generalizing slots with
  | nil => exact h j
  | cons i is ih => exact ih (put_lawful h (clearOne_lawful (h i)))

/-! ## The law through the table's acts (R160, R162 to R164, R166, R168, R170) -/

section Acts

variable {k : ConditionTable} {p : Port}

theorem mem_latchedFrom {start : Nat} {i : SlotNo} :
    i ∈ k.latchedFrom start ↔ start ≤ i.val ∧ (k.slots.get i).latched = true := by
  simp [ConditionTable.latchedFrom]

/-- READ CONDITIONS selects latched slots alone (R162). -/
theorem latched_of_mem_selected {start : Nat} {i : SlotNo} (h : i ∈ k.selected start) :
    (k.slots.get i).latched = true :=
  (mem_latchedFrom.1 (List.mem_of_mem_take h)).2

theorem markSeen_get {is : List SlotNo} {slots : Vector Slot 75} (i : SlotNo) : (markSeen p is slots).get i
    = if i ∈ is then { slots.get i with seenBy := (slots.get i).seenBy.add p } else slots.get i :=
  ofFn_get _ i

theorem tableOccurred_lawful (i : SlotNo) (epoch : Word16) (h : k.Lawful) : (k.occurred i epoch).Lawful :=
  formLines_lawful (put_lawful h.slots (slotOccurred_lawful epoch))

theorem deasserted_lawful (n : Line) (h : k.Lawful) : (k.deasserted n).Lawful := by
  unfold ConditionTable.deasserted
  split
  · exact formLines_lawful (put_lawful h.slots (slotClear_lawful _))
  · exact formLines_lawful h.slots

theorem readBy_lawful (p : Port) (start : Nat) (h : k.Lawful) : (k.readBy p start).Lawful := by
  refine formLines_lawful fun i => ?_
  rw [markSeen_get]
  split
  · rename_i hi
    exact seenBy_lawful _ (h.slots i) (latched_of_mem_selected hi)
  · exact h.slots i

/-- A port's attention replaced and the lines formed anew. -/
theorem setAttention_formLines_lawful (p : Port) (x : Attention) (h : k.Lawful) :
    (k.setAttention p x).formLines.Lawful :=
  formLines_lawful fun i => by
    rw [setAttention_slots]
    exact h.slots i

theorem initialized_lawful (k : ConditionTable) : k.initialized.Lawful :=
  formLines_lawful fun i => by rw [replicate_get]; exact slotClear_lawful i

end Acts

/-! ## Every command and every step -/

section Steps

variable {p : Port} {s t : State} {c : Instr}

/-- The law is about the Condition Table alone. -/
theorem conditionsLawful_calm : Calm fun s => s.conditions.Lawful := ⟨fun _ _ h => h, fun _ _ h => h⟩

theorem readConditions_lawful (start : Nat) (hs : s.conditions.Lawful) :
    (readConditions p start s).2.conditions.Lawful := by
  unfold readConditions
  split
  · exact readBy_lawful p start hs
  · exact hs

theorem clearConditions_lawful (list : List Byte) (hs : s.conditions.Lawful) :
    (clearConditions p list s).2.conditions.Lawful := by
  unfold clearConditions
  split
  · exact hs
  split
  · exact hs
  · exact formLines_lawful (clearAll_lawful _ hs.slots)

theorem setAttention_lawful (mask : Mask24) (mode : Nat) (hs : s.conditions.Lawful) :
    (setAttention p mask mode s).2.conditions.Lawful := by
  unfold setAttention
  split
  · exact hs
  split
  · exact hs
  · exact setAttention_formLines_lawful p _ hs

/-- What holds of the state in an owner's answer holds of the state answered. -/
theorem holds_of_answer {P : State → Prop} {x : Reply × State} {r : Reply} (hx : P x.2) (h : some x = some (r, t)) :
    P t := by
  obtain rfl := Option.some.inj h
  exact hx

/-- Each command of the Condition Table. -/
theorem conditions_keeps_lawful (hc : blockOf c = .conditions) (hs : s.conditions.Lawful) (h : exec c s = .next t) :
    t.conditions.Lawful := by
  cases c <;> first | (cases hc; done) | skip
  case occurrence i =>
    simp only [exec, execOccurrence, Host.Outcome.next.injEq] at h
    subst h
    split
    · rename_i htake
      exact tableOccurred_lawful i _ (take_kept conditionsLawful_calm htake hs)
    · exact hs
  case deassertionNotice n =>
    simp only [exec, execDeassertionNotice, Host.Outcome.next.injEq] at h
    subst h
    split
    · rename_i htake
      exact deasserted_lawful n (take_kept conditionsLawful_calm htake hs)
    · exact hs
  case readConditions p =>
    cases h
    refine serve_kept conditionsLawful_calm (fun body u r v hu hb => ?_) hs
    split at hb
    · exact holds_of_answer (P := fun s => s.conditions.Lawful) (readConditions_lawful _ hu) hb
    · cases hb
  case clearConditions p =>
    cases h
    refine serve_kept conditionsLawful_calm (fun body u r v hu hb => ?_) hs
    split at hb
    · exact holds_of_answer (P := fun s => s.conditions.Lawful) (clearConditions_lawful _ hu) hb
    · cases hb
  case setAttention p =>
    cases h
    refine serve_kept conditionsLawful_calm (fun body u r v hu hb => ?_) hs
    split at hb
    · exact holds_of_answer (P := fun s => s.conditions.Lawful) (setAttention_lawful _ _ hu) hb
    · cases hb
  case acknowledge p =>
    cases h
    exact serveOnly_kept conditionsLawful_calm (fun _ => setAttention_formLines_lawful p _) hs
  case conditionTableInitialize =>
    cases h
    exact takeInitNotice_kept conditionsLawful_calm (fun u _ => initialized_lawful u.conditions) hs

theorem exec_keeps_conditionsLawful (hs : s.conditions.Lawful) (h : exec c s = .next t) : t.conditions.Lawful := by
  by_cases hr : blockOf c = .reset
  · rcases reset_cases hr h with ⟨phase, rfl⟩ | rfl | ⟨pins, rfl⟩
    · exact conditionsAtReset_lawful
    · exact hs
    · exact hs
  by_cases hc : blockOf c = .conditions
  · exact conditions_keeps_lawful hc hs h
  · rwa [conditions_other h hr hc]

end Steps

/-- Settles O11: every act on the table leaves lawful slots and forms the lines anew, a reset clears the table, and no
other command touches it. -/
theorem conditionTableLawKeptByEveryStep : Obligations.ConditionTableLawKeptByEveryStep := fun _ _ =>
  step_keeps (P := fun s => s.conditions.Lawful) (fun _ _ hs => hs) (fun _ hs _ => hs)
    fun _ _ _ => exec_keeps_conditionsLawful

end Sys2Proof.Proofs.Conditions

/-! # Occurrences and deassertion notices -/

namespace Sys2Proof.Proofs.Conditions

open Sys2Proof Sys2Proof.Machine Sys2Proof.Proofs.ChannelPlan

/-! ## An occurrence (R160) -/

section Acts

variable {i j : SlotNo} {n : Line} {k : ConditionTable} {p : Port} {s s' : State}

theorem exec_occurrence (h : s.take (Message.concernsSlot i) = some (.occurrence i, s')) :
    exec (.occurrence i) s
      = .next (s'.setConditions (s'.conditions.occurred i s'.timebase.counter)) := by
  simp only [exec, execOccurrence, h]

theorem occurred_slot (epoch : Word16) :
    (k.occurred i epoch).slots.get i = (k.slots.get i).occurred epoch := put_get_same _ _ _

theorem occurred_slot_other (epoch : Word16) (h : j ≠ i) : (k.occurred i epoch).slots.get j = k.slots.get j :=
  put_get_other _ _ h.symm

/-- An occurrence sets the latches of the ports whose masks hold its kind, in either mode. -/
theorem occurred_attention (epoch : Word16) (p : Port) :
    ((k.occurred i epoch).attention p).mask = (k.attention p).mask
    ∧ ((k.occurred i epoch).attention p).mode = (k.attention p).mode
    ∧ ((k.occurred i epoch).attention p).latch
      = ((k.attention p).latch || (k.attention p).mask.getLsbD (kindOf i)) := by
  cases p <;> exact ⟨rfl, rfl, rfl⟩

/-! ## A deassertion notice (R164) -/

/-- Other slots, and the lines formed anew, change no mask, mode or latch. -/
theorem formLines_keeps (k : ConditionTable) (slots : Vector Slot 75) (p : Port) :
    ((ConditionTable.formLines { k with slots := slots }).attention p).mask = (k.attention p).mask
    ∧ ((ConditionTable.formLines { k with slots := slots }).attention p).mode = (k.attention p).mode
    ∧ ((ConditionTable.formLines { k with slots := slots }).attention p).latch = (k.attention p).latch := by
  cases p <;> exact ⟨rfl, rfl, rfl⟩

theorem deasserted_of_pending (h : (k.slots.get (lineSlot n)).clearPending = true) :
    k.deasserted n = (k.setSlot (lineSlot n) Slot.clear).formLines := if_pos h

/-- A notice for a slot that is not clear-pending leaves a lawful table as it is. -/
theorem deasserted_of_not_pending (hk : k.Lawful) (h : (k.slots.get (lineSlot n)).clearPending = false) :
    k.deasserted n = k := by
  rw [ConditionTable.deasserted, h]
  exact formLines_of_lawful hk

theorem exec_deassertionNotice (h : s.take (Message.concernsSlot (lineSlot n)) = some (.deassertion n, s')) :
    exec (.deassertionNotice n) s = .next (s'.setConditions (s'.conditions.deasserted n)) := by
  simp only [exec, execDeassertionNotice, h]

theorem concernsSlot_iff (x : Message) :
    x.concernsSlot i = true ↔ x = .occurrence i ∨ ∃ n, lineSlot n = i ∧ x = .deassertion n := by
  cases x <;> simp [Message.concernsSlot, and_comm]

end Acts

/-! ## The numbers of the slots and of their kinds (R158) -/

/-- A table that lists each kind beside its number gives the number of every kind in it. -/
theorem number_of_mem {α : Type} {f : α → Nat} {l : List (α × Nat)} (hl : ∀ x ∈ l, f x.1 = x.2) {k : α} {n : Nat}
    (h : (k, n) ∈ l) : f k = n := hl _ h

theorem channelKind_slot_val {k : ChannelKind} {n : Nat} (h : k.place.val = n) (c : Chan) :
    (k.slot c).val = 11 + 7 * c.val + n := h ▸ rfl

theorem kindOf_site {i : SlotNo} (h : i.val < 11) : kindOf i = i.val := if_pos h

theorem kindOf_channel {i : SlotNo} (hlow : 11 ≤ i.val) (hhigh : i.val < 67) :
    kindOf i = 11 + (i.val - 11) % 7 :=
  (if_neg (Nat.not_lt.2 hlow)).trans (if_pos hhigh)

theorem kindOf_line {i : SlotNo} (h : 67 ≤ i.val) : kindOf i = 18 :=
  (if_neg (by omega)).trans (if_neg (Nat.not_lt.2 h))

/-- Settles O55: the slot and the latches after an occurrence, the slot cleared or the table kept at a deassertion
notice, the order of taking, the numbers by their tables. -/
theorem occurrenceLatchesAndDeassertionClears : Obligations.OccurrenceLatchesAndDeassertionClears := by
  refine ⟨fun i s s' h => ⟨_, exec_occurrence h, rfl, ?_⟩, fun n s s' h hk => ?_, fun i m s s' =>
    take_iff concernsSlot_iff, fun k n => number_of_mem (f := fun k : SiteKind => k.slot.val) (by decide),
    fun k n h => channelKind_slot_val (number_of_mem (f := fun k : ChannelKind => k.place.val) (by decide) h),
    fun n => rfl, fun i => ⟨kindOf_site, kindOf_channel, kindOf_line⟩⟩
  · obtain ⟨l, rfl⟩ := take_from h
    exact ⟨occurred_slot _, fun j => occurred_slot_other _, occurred_attention _, tableOccurred_lawful i _⟩
  · rw [exec_deassertionNotice h]
    obtain ⟨l, rfl⟩ := take_from h
    refine ⟨fun hp => ?_, fun hp => ⟨_, rfl, rfl, ?_⟩⟩
    · rw [deasserted_of_not_pending (k := s'.conditions) hk hp]
      rfl
    · rw [State.setConditions_conditions, deasserted_of_pending (k := s'.conditions) hp]
      exact ⟨put_get_same _ _ _, fun j hj => put_get_other _ _ hj.symm, formLines_keeps _ _,
        formLines_lawful (put_lawful hk.slots (slotClear_lawful _))⟩

end Sys2Proof.Proofs.Conditions

/-! # READ CONDITIONS and CLEAR CONDITIONS -/

namespace Sys2Proof.Proofs.Conditions

open Sys2Proof Sys2Proof.Machine Sys2Proof.Proofs.ChannelPlan

/-! ## READ CONDITIONS (R162) -/

section Reading

variable {p : Port} {tag : Option Byte} {n : Nat} {s s' t : State} {x : Reply}

theorem exec_readConditions (h : Asked .conditions p tag (.readConditions n) s s')
    (hx : readConditions p n s' = (x, t)) : exec (.readConditions p) s = .next (t.answer p tag x) :=
  congrArg Host.Outcome.next (serve_asked h (congrArg some hx))

theorem readConditions_of_no_slot (h : 75 ≤ n) : readConditions p n s = (.plain .range .conditionSlot, s) :=
  if_neg (Nat.not_lt.2 h)

theorem boolByte_decide (P : Prop) [Decidable P] : boolByte (decide P) = if P then 1 else 0 := by
  simp [boolByte]

/-- The eight slots selected are sent from the table left, with the more-indicator (log entry 20). -/
theorem readConditions_of_slot (h : n < 75) : readConditions p n s =
    (.done (natBytes 1 (s.conditions.selected n).length
        ++ [if 8 < (s.conditions.latchedFrom n).length then 1 else 0]
        ++ (s.conditions.selected n).flatMap fun i => encodeSlot i ((s.conditions.readBy p n).slots.get i)),
      s.setConditions (s.conditions.readBy p n)) := by
  rw [readConditions, if_pos h, conditionsReply, boolByte_decide]
  rfl

/-- The slots selected after a READ CONDITIONS hold the port in their seen-by sets. -/
theorem readBy_slot {k : ConditionTable} (i : SlotNo) : (k.readBy p n).slots.get i = if i ∈ k.selected n then
    { k.slots.get i with seenBy := (k.slots.get i).seenBy.add p } else k.slots.get i :=
  markSeen_get i

theorem readBy_keeps {k : ConditionTable} (q : Port) : ((k.readBy p n).attention q).mask = (k.attention q).mask
    ∧ ((k.readBy p n).attention q).mode = (k.attention q).mode
    ∧ ((k.readBy p n).attention q).latch = (k.attention q).latch := by
  unfold ConditionTable.readBy
  exact formLines_keeps k _ q

end Reading

/-! ## The list of a CLEAR CONDITIONS (R163) -/

theorem slotOf_val (i : SlotNo) : slotOf i.val = some i := dif_pos i.isLt

theorem slotOf_none {n : Nat} (h : 75 ≤ n) : slotOf n = none := dif_neg (Nat.not_lt.2 h)

/-- The bytes of slot numbers name those slots. -/
theorem slotsOf_map (is : List SlotNo) : slotsOf (is.map fun i => BitVec.ofNat 8 i.val) = some is := by
  induction is with
  | nil => rfl
  | cons i is ih =>
    have hi : (BitVec.ofNat 8 i.val).toNat = i.val := by
      rw [BitVec.toNat_ofNat, Nat.mod_eq_of_lt (by omega)]
    rw [List.map_cons, slotsOf, hi, slotOf_val, ih]

/-- One byte that names no slot spoils the list. -/
theorem slotsOf_none {bs : List Byte} (h : ∃ b ∈ bs, 75 ≤ b.toNat) : slotsOf bs = none := by
  induction bs with
  | nil => simp at h
  | cons b bs ih =>
    rw [slotsOf]
    obtain ⟨c, hmem, hc⟩ := h
    rcases List.mem_cons.1 hmem with rfl | hmem
    · rw [slotOf_none hc]
    · rw [ih ⟨c, hmem, hc⟩]
      cases slotOf b.toNat <;> rfl

section Clearing

variable {lines : Vector FaultLine 8} {p : Port} {i : SlotNo} {t : Slot}

/-! ## One entry (R163, log entry 33) -/

theorem clearOne_of_unread (h : t.latched = false ∨ t.seenBy.has p = false) :
    clearOne lines p i t = (.notCleared, t) :=
  if_neg (by simpa [Bool.and_eq_true, or_iff_not_imp_left] using h)

theorem clearOne_of_held (hl : t.latched = true) (hr : t.seenBy.has p = true) (hh : heldByLine lines i = true) :
    clearOne lines p i t = (.clearPending, { t with clearPending := true }) := by
  rw [clearOne, hl, hr, hh]
  rfl

theorem clearOne_of_free (hl : t.latched = true) (hr : t.seenBy.has p = true) (hh : heldByLine lines i = false) :
    clearOne lines p i t = (.cleared, Slot.clear) := by
  rw [clearOne, hl, hr, hh]
  rfl

/-- A line under EDGE or deasserted holds back no slot. -/
theorem heldByLine_false (h : ∀ l : Line, i = lineSlot l →
    (lines.get l).config.sensitivity = .edge ∨ (lines.get l).asserted = false) : heldByLine lines i = false := by
  refine Bool.eq_false_iff.2 fun hheld => ?_
  obtain ⟨l, hi, hsensitivity, hasserted⟩ := heldByLine_iff.1 hheld
  rcases h l hi with h | h
  · rw [h] at hsensitivity
    cases hsensitivity
  · rw [h] at hasserted
    cases hasserted

/-! ## The entries in list order (R163) -/

/-- One more entry judged: its bytes join the results, its slot is replaced. -/
def judged (lines : Vector FaultLine 8) (p : Port) (x : List Byte × Vector Slot 75) (i : SlotNo) :
    List Byte × Vector Slot 75 :=
  (x.1 ++ [BitVec.ofNat 8 i.val, (clearOne lines p i (x.2.get i)).1.code],
    put x.2 i (clearOne lines p i (x.2.get i)).2)

/-- The entries judged one by one are those the model judges. -/
theorem foldl_judged (is : List SlotNo) (bytes : List Byte) (slots : Vector Slot 75) :
    is.foldl (judged lines p) (bytes, slots)
      = (bytes ++ (clearAll lines p is slots).1, (clearAll lines p is slots).2) := by
  induction is generalizing bytes slots with
  | nil => simp [clearAll]
  | cons i is ih => simp [clearAll, judged, ih]

theorem clearAll_unlisted {is : List SlotNo} {slots : Vector Slot 75} {j : SlotNo} (h : j ∉ is) :
    (clearAll lines p is slots).2.get j = slots.get j := by
  induction is generalizing slots with
  | nil => rfl
  | cons i is ih =>
    obtain ⟨hne, his⟩ := not_or.1 (mt List.mem_cons.2 h)
    exact (ih his).trans (put_get_other _ _ (Ne.symm hne))

end Clearing

/-! ## CLEAR CONDITIONS (R163) -/

section ClearConditions

variable {p : Port} {tag : Option Byte} {list : List Byte} {is : List SlotNo} {s s' t : State} {x : Reply}

theorem exec_clearConditions (h : Asked .conditions p tag (.clearConditions list) s s')
    (hx : clearConditions p list s' = (x, t)) : exec (.clearConditions p) s = .next (t.answer p tag x) :=
  congrArg Host.Outcome.next (serve_asked h (congrArg some hx))

theorem clearConditions_of_long (h : 16 < list.length) :
    clearConditions p list s = (.plain .range .clearCount, s) := if_pos h

theorem clearConditions_of_no_slot (h : list.length ≤ 16) (hb : ∃ b ∈ list, 75 ≤ b.toNat) :
    clearConditions p list s = (.plain .range .conditionSlot, s) := by
  have hlen : ¬ Config.maxClears < list.length := Nat.not_lt.2 h
  rw [clearConditions, if_neg hlen, slotsOf_none hb]
  rfl

theorem clearConditions_of_slots (h : is.length ≤ 16) :
    clearConditions p (is.map fun i => BitVec.ofNat 8 i.val) s =
      (.done (natBytes 1 is.length ++ (clearAll s.lines p is s.conditions.slots).1),
        s.setConditions
          (ConditionTable.formLines { s.conditions with slots := (clearAll s.lines p is s.conditions.slots).2 })) := by
  have hlen : ¬ Config.maxClears < (is.map fun i => BitVec.ofNat 8 i.val).length := by
    rw [List.length_map]
    exact Nat.not_lt.2 h
  rw [clearConditions, if_neg hlen, slotsOf_map]

end ClearConditions

/-! ## The condition slot record of five bytes (R184) -/

theorem flagByte_four (a b c d : Bool) :
    flagByte [a, b, c, d] = flag a 1 + flag b 2 + flag c 4 + flag d 8 := by
  revert a b c d
  decide

theorem encodeSlot_eq (i : SlotNo) (t : Slot) : encodeSlot i t =
    [BitVec.ofNat 8 i.val, BitVec.ofNat 8 t.occurrences]
      ++ (match t.lastEpoch with | some n => word2 n.toNat | none => [0, 0])
      ++ [BitVec.ofNat 8 (flag t.clearPending 1 + flag t.seenBy.a 2 + flag t.seenBy.b 4 + flag t.seenBy.s 8)] := by
  rw [encodeSlot, flagByte_four, natBytes_one, natBytes_one, natBytes_two]
  cases t.lastEpoch <;> rfl

/-- Settles O56: READ CONDITIONS by the slots selected, CLEAR CONDITIONS by its refusals and by the list judged entry by
entry, one entry by its three results, the record byte by byte. -/
theorem conditionsReadAndCleared : Obligations.ConditionsReadAndCleared := by
  refine ⟨fun p tag n s s' h => ?_, fun p tag list s s' h => ?_, fun lines p i t => ⟨clearOne_of_unread, fun hl hr =>
    ⟨fun l hi hs ha => clearOne_of_held hl hr (heldByLine_iff.2 ⟨l, hi, hs, ha⟩),
      fun hfree => clearOne_of_free hl hr (heldByLine_false hfree)⟩⟩, rfl, rfl, rfl, encodeSlot_eq⟩
  · obtain ⟨l, rfl⟩ := asked_from h
    refine ⟨fun hn => exec_readConditions h (readConditions_of_no_slot hn), ?_⟩
    intro hn sel all hall hsel
    obtain rfl : all = s'.conditions.latchedFrom n := hall
    obtain rfl : sel = s'.conditions.selected n := hsel
    exact ⟨s'.setConditions (s'.conditions.readBy p n), exec_readConditions h (readConditions_of_slot hn), rfl,
      readBy_slot, readBy_keeps, readBy_lawful p n⟩
  · obtain ⟨l, rfl⟩ := asked_from h
    refine ⟨fun hlen => exec_clearConditions h (clearConditions_of_long hlen),
      fun hlen hb => exec_clearConditions h (clearConditions_of_no_slot hlen hb), ?_⟩
    rintro is results slots rfl hlen hfold
    have hall := foldl_judged (lines := s'.lines) (p := p) is [] s'.conditions.slots
    obtain ⟨rfl, rfl⟩ := Prod.mk.inj (hfold.trans hall)
    exact ⟨_, exec_clearConditions h (clearConditions_of_slots hlen), rfl, rfl, fun j => clearAll_unlisted,
      formLines_keeps _ _, fun hk => formLines_lawful (clearAll_lawful is hk.slots)⟩

end Sys2Proof.Proofs.Conditions

/-! # SET ATTENTION, ACKNOWLEDGE and the notice of an INITIALIZE at the Condition Table -/

namespace Sys2Proof.Proofs.Conditions

open Sys2Proof Sys2Proof.Machine Sys2Proof.Proofs.ChannelPlan

/-! ## The fields of a SET ATTENTION (R166) -/

/-- A mask fits where it names no kind above 18. -/
theorem maskFits_iff {mask : Mask24} : maskFits mask = true ↔ ∀ k, 19 ≤ k → mask.getLsbD k = false := by
  rw [maskFits, decide_eq_true_eq]
  exact ⟨fun h k hk => Nat.testBit_lt_two_pow (h.trans_le (Nat.pow_le_pow_right (by decide) hk)),
    fun h => Nat.lt_pow_two_of_testBit _ h⟩

theorem maskFits_false {mask : Mask24} (h : ∃ k, 19 ≤ k ∧ mask.getLsbD k = true) : maskFits mask = false := by
  obtain ⟨k, hk, hbit⟩ := h
  exact Bool.eq_false_iff.2 fun hfits => absurd hbit (by rw [maskFits_iff.1 hfits k hk]; decide)

theorem attentionMode_ofCode_none : ∀ {m : Nat}, 2 ≤ m → AttentionMode.ofCode m = none
  | _ + 2, _ => rfl

/-! ## SET ATTENTION (R166) -/

section SetAttention

variable {p : Port} {tag : Option Byte} {mask : Mask24} {m : Nat} {mode : AttentionMode} {s s' t : State} {x : Reply}
variable {k : ConditionTable} {q : Port} {y : Attention}

theorem exec_setAttention (h : Asked .conditions p tag (.setAttention mask m) s s')
    (hx : setAttention p mask m s' = (x, t)) : exec (.setAttention p) s = .next (t.answer p tag x) :=
  congrArg Host.Outcome.next (serve_asked h (congrArg some hx))

theorem setAttention_of_bad_mask (h : ∃ k, 19 ≤ k ∧ mask.getLsbD k = true) :
    setAttention p mask m s = (.plain .range .attentionMask, s) := by
  rw [setAttention, maskFits_false h]
  rfl

theorem setAttention_of_bad_mode (h : ∀ k, 19 ≤ k → mask.getLsbD k = false) (hm : 2 ≤ m) :
    setAttention p mask m s = (.plain .range .attentionMode, s) := by
  rw [setAttention, maskFits_iff.2 h, attentionMode_ofCode_none hm]
  rfl

theorem setAttention_of_passes (h : ∀ k, 19 ≤ k → mask.getLsbD k = false)
    (hm : m = 0 ∧ mode = .edge ∨ m = 1 ∧ mode = .level) :
    setAttention p mask m s = (.done (natBytes 3 mask.toNat ++ natBytes 1 m),
      s.setConditions (s.conditions.withAttention p mask mode)) := by
  rw [setAttention, maskFits_iff.2 h]
  rcases hm with ⟨rfl, rfl⟩ | ⟨rfl, rfl⟩ <;> rfl

/-- The port's own attention after it is replaced, its line formed anew. -/
theorem setAttention_formLines_same :
    (k.setAttention p y).formLines.attention p = { y with line := lineLevel k.slots p y } := by
  rw [formLines_attention, attention_setAttention, if_pos rfl, setAttention_slots]

/-- A port's attention replaced by one with its latch leaves every latch. -/
theorem setAttention_formLines_latch (hy : y.latch = (k.attention p).latch) :
    ((k.setAttention p y).formLines.attention q).latch = (k.attention q).latch := by
  rw [formLines_attention, attention_setAttention]
  split
  · rename_i hq
    rw [hq]
    exact hy
  · rfl

end SetAttention

/-! ## ACKNOWLEDGE (R168) and the notice of an INITIALIZE (R170) -/

theorem exec_acknowledge {p : Port} {tag : Option Byte} {s s' : State}
    (h : Asked .conditions p tag .acknowledge s s') : exec (.acknowledge p) s
      = .next (State.answer p tag (.done []) (s'.setConditions (s'.conditions.acknowledged p))) :=
  congrArg Host.Outcome.next (serveOnly_asked h)

theorem exec_conditionTableInitialize {m : Message} {s s' : State}
    (h : s.take (Message.isInitNotice .conditionTable) = some (m, s')) : exec .conditionTableInitialize s
      = .next (State.send [.initReport .conditionTable] (s'.setConditions s'.conditions.initialized)) :=
  congrArg Host.Outcome.next (takeInitNotice_some h)

theorem initialized_slot (k : ConditionTable) (i : SlotNo) : k.initialized.slots.get i = Slot.clear :=
  replicate_get _ i

/-- A cleared slot asserts no line: without its latch a port's line is not asserted. -/
theorem lineLevel_cleared {p : Port} {x : Attention} (hx : x.latch = false) :
    lineLevel (Vector.replicate 75 Slot.clear) p x = false := by
  refine Bool.eq_false_iff.2 fun h => ?_
  rcases lineLevel_iff.1 h with hlatch | ⟨-, i, hlatched, -⟩
  · exact absurd (hx.symm.trans hlatch) (by decide)
  · rw [replicate_get] at hlatched
    cases hlatched

theorem initialized_attention (k : ConditionTable) (p : Port) :
    k.initialized.attention p = { k.attention p with latch := false, line := false } := by
  have hformed : k.initialized.attention p = { k.attention p with
      latch := false, line := lineLevel (Vector.replicate 75 Slot.clear) p (k.attention p).unlatched } := by
    cases p <;> rfl
  rw [hformed, lineLevel_cleared rfl]

/-- Settles O57: SET ATTENTION by its tests, then the port's mask and mode replaced; ACKNOWLEDGE by the latch cleared;
the notice of an INITIALIZE by the table cleared. -/
theorem attentionSetAcknowledgedAndInitialized : Obligations.AttentionSetAcknowledgedAndInitialized := by
  refine ⟨fun p tag mask m s s' h => ?_, fun p tag s s' h => ⟨_, exec_acknowledge h, rfl, ?_⟩,
    fun s s' h => ⟨_, exec_conditionTableInitialize h, rfl, initialized_slot _, fun p => ?_⟩⟩
  · obtain ⟨l, rfl⟩ := asked_from h
    refine ⟨fun hbad => exec_setAttention h (setAttention_of_bad_mask hbad),
      fun hfits hm => exec_setAttention h (setAttention_of_bad_mode hfits hm),
      fun mode hfits hm => ⟨_, exec_setAttention h (setAttention_of_passes hfits hm), rfl, ?_⟩⟩
    rw [State.setConditions_conditions, ConditionTable.withAttention, setAttention_formLines_same]
    exact ⟨setAttention_slots, rfl, rfl, fun q => setAttention_formLines_latch rfl,
      fun hk => ⟨setAttention_formLines_lawful p _ hk, fun q => setAttention_formLines_other hk⟩⟩
  · obtain ⟨l, rfl⟩ := asked_from h
    rw [State.setConditions_conditions, ConditionTable.acknowledged, setAttention_formLines_same]
    exact ⟨setAttention_slots, rfl, rfl, rfl,
      fun hk => ⟨setAttention_formLines_lawful p _ hk, fun q => setAttention_formLines_other hk⟩⟩
  · obtain ⟨l, rfl⟩ := take_from h
    rw [State.send_conditions, State.setConditions_conditions, initialized_attention]
    exact ⟨rfl, rfl, rfl, rfl⟩

end Sys2Proof.Proofs.Conditions

/-! # Ports: frames received byte by byte -/

namespace Sys2Proof.Proofs.Ports

open Sys2Proof Sys2Proof.Machine Sys2Proof.Proofs.ChannelPlan

/-! ## Every command (log entries 3, 22) -/

/-- Settles O2: no arm of exec ends in a fault or a refusal, and no block writes the queue of commands. -/
theorem everyCommandAnswersNext : Obligations.EveryCommandAnswersNext := fun c s =>
  let ⟨t, ht⟩ := exec_next c s
  ⟨t, ht, pending_kept ht⟩

/-! ## Whole frames (R184) -/

section Frame

variable {header tag code : Byte} {payload : List Byte}

theorem buildFrame_eq (header tag code : Byte) (payload : List Byte) : buildFrame header tag code payload
    = header :: tag :: code :: BitVec.ofNat 8 payload.length :: payload
      ++ [crc8 (header :: tag :: code :: BitVec.ofNat 8 payload.length :: payload)] := rfl

theorem fieldAt_one (bytes : List Byte) (k : Nat) : fieldAt bytes k 1 = (bytes.getD k 0).toNat := by
  induction bytes generalizing k with
  | nil => simp [fieldAt, beNat]
  | cons b bs ih =>
    cases k with
    | zero => exact fieldAt_first b bs
    | succ k => simpa [fieldAt] using ih k

/-- A list of bytes is a whole frame where its length byte, at most 60, names its length. -/
theorem wholeFrame_iff {f : List Byte} :
    wholeFrame f = true ↔ (f.getD 3 0).toNat ≤ 60 ∧ f.length = 5 + (f.getD 3 0).toNat := by
  simp [wholeFrame, fieldAt_one, Config.maxPayload]

theorem wholeFrame_buildFrame (h : payload.length ≤ 60) : wholeFrame (buildFrame header tag code payload) = true := by
  have hlen : (BitVec.ofNat 8 payload.length).toNat = payload.length := by rw [BitVec.toNat_ofNat]; omega
  refine wholeFrame_iff.2 ?_
  rw [show (buildFrame header tag code payload).getD 3 0 = BitVec.ofNat 8 payload.length from rfl, hlen, buildFrame_eq]
  simp only [List.length_append, List.length_cons, List.length_nil]
  omega

/-- The bytes of a whole frame are collected up to its last, which completes it. -/
theorem collect_of_whole {got rest : List Byte} {b : Byte} (h : wholeFrame (got ++ b :: rest) = true) :
    collect got b = if rest = [] then .complete (got ++ [b]) else .more (got ++ [b]) := by
  obtain ⟨hmax, hlen⟩ := wholeFrame_iff.1 h
  have hlength : 4 ≤ got.length → (got ++ b :: rest).getD 3 0 = got.getD 3 0 := fun h4 => List.getD_append _ _ _ _ h4
  have hthird : got.length = 3 → (got ++ b :: rest).getD 3 0 = b := fun h3 => by
    rw [List.getD_append_right _ _ _ _ h3.le, h3]
    rfl
  rw [List.length_append, List.length_cons] at hlen
  split_ifs with hr
  · subst hr
    have h4 : 4 ≤ got.length := by rw [List.length_nil] at hlen; omega
    rw [hlength h4] at hlen hmax
    exact collect_complete h4 (by rw [List.length_nil] at hlen; omega) hmax
  · have hpos := List.length_pos_of_ne_nil hr
    refine collect_more ?_
    rcases lt_trichotomy got.length 3 with h3 | h3 | h3
    · exact Or.inl h3
    · rw [hthird h3] at hmax
      exact Or.inr (Or.inl ⟨h3, hmax⟩)
    · rw [hlength h3] at hlen
      exact Or.inr (Or.inr ⟨h3, by omega⟩)

end Frame

/-! ## A frame under way on a port (R173, R175) -/

/-- Of a frame under way on a port these bytes have come; a ready Port S receiver has had none. -/
def Collecting (i : PortInterfaces) (got : List Byte) : Port → Prop
  | .a => i.a.period = .write got
  | .b => i.b.period = .write got
  | .s => i.s.receiver = .inFrame got ∨ i.s.receiver = .ready ∧ got = []

/-- The Port Interfaces with these bytes of a frame come on a port. -/
def collectedOn (i : PortInterfaces) (got : List Byte) : Port → PortInterfaces
  | .a => { i with a := { i.a with period := .write got } }
  | .b => { i with b := { i.b with period := .write got } }
  | .s => { i with s := { i.s with receiver := .inFrame got } }

/-- The Port Interfaces with a port's frame at its end: the port ignores what follows. -/
def endedOn (i : PortInterfaces) : Port → PortInterfaces
  | .a => { i with a := { i.a with period := .ignored } }
  | .b => { i with b := { i.b with period := .ignored } }
  | .s => { i with s := { i.s with receiver := .waitingIdle } }

/-- What a port makes of the frame a byte is collected into. -/
def collectedFrame (i : PortInterfaces) (p : Port) : Collected → PortInterfaces × Option (List Byte)
  | .more got => (collectedOn i got p, none)
  | .tooLong => (endedOn i p, none)
  | .complete f => (endedOn i p, some f)

section Bytes

variable {i : PortInterfaces} {p : Port} {got : List Byte} {b : Byte}

theorem collecting_collectedOn : Collecting (collectedOn i got p) got p := by
  cases p
  exacts [rfl, rfl, Or.inl rfl]

theorem endedOn_collectedOn : endedOn (collectedOn i got p) p = endedOn i p := by cases p <;> rfl

/-- A byte of a frame under way is collected into it. -/
theorem byte_of_collecting (h : Collecting i got p) : i.byte p b = collectedFrame i p (collect got b) := by
  cases p with
  | a | b =>
    simp only [Collecting] at h
    simp only [PortInterfaces.byte, SyncInterface.byte, h]
    cases collect got b <;> rfl
  | s =>
    rcases h with h | ⟨h, rfl⟩
    all_goals
      simp only [PortInterfaces.byte, ReceiverS.byte, collectS, h]
      cases collect _ b <;> rfl

theorem bytes_nil : i.bytes p [] = (i, none) := rfl

theorem bytes_cons (bs : List Byte) : i.bytes p (b :: bs) =
    if (i.byte p b).2 = none then (i.byte p b).1.bytes p bs else i.byte p b := by
  rw [PortInterfaces.bytes]
  split
  · rename_i h
    simp [h]
  · rename_i h
    simp [h]

theorem bytes_singleton : i.bytes p [b] = i.byte p b := by
  rw [bytes_cons]
  split_ifs with h
  · rw [bytes_nil, ← h]
  · rfl

/-- The bytes of a whole frame that are still to come end it and hand it over. -/
theorem bytes_of_whole {f rest : List Byte} (hf : wholeFrame f = true) (hrest : rest ≠ []) (h : Collecting i got p)
    (hsplit : got ++ rest = f) : i.bytes p rest = (endedOn i p, some f) := by
  induction rest generalizing i got with
  | nil => exact absurd rfl hrest
  | cons b rest ih =>
    rw [bytes_cons, byte_of_collecting h, collect_of_whole (hsplit ▸ hf)]
    by_cases hr : rest = []
    · subst hr hsplit
      rw [if_pos rfl]
      rfl
    · rw [if_neg hr]
      exact (ih hr collecting_collectedOn (by simpa using hsplit)).trans (by rw [endedOn_collectedOn])

/-- Where a port ignores what comes, bytes change nothing. -/
theorem bytes_of_deaf (h : ∀ b, i.byte p b = (i, none)) (bs : List Byte) : i.bytes p bs = (i, none) := by
  induction bs with
  | nil => rfl
  | cons b bs ih => rw [bytes_cons, h, if_pos rfl, ih]

/-- No byte changes the unit address a Port Interface holds. -/
theorem byte_unitAddress : (i.byte p b).1.unitAddress = i.unitAddress := by cases p <;> rfl

theorem bytes_unitAddress (bs : List Byte) : (i.bytes p bs).1.unitAddress = i.unitAddress := by
  induction bs generalizing i with
  | nil => rfl
  | cons b bs ih =>
    rw [bytes_cons]
    split_ifs
    · rw [ih, byte_unitAddress]
    · exact byte_unitAddress

end Bytes
end Sys2Proof.Proofs.Ports

/-! # Ports: the events of the ports -/

namespace Sys2Proof.Proofs.Ports

open Sys2Proof Sys2Proof.Machine

/-! ## Bytes on a port (log entry 7) -/

section Receive

variable {s : State} {p : Port} {i : PortInterfaces} {bs got : List Byte} {b : Byte}

theorem exec_requestFrameComplete (hr : s.phase = .running) :
    exec (.requestFrameComplete p bs) s = .next (s.receive p bs) :=
  congrArg Host.Outcome.next (whenRunning_of hr)

/-- Bytes that complete no frame change the Port Interface alone. -/
theorem receive_of_none (h : s.ports.bytes p bs = (i, none)) : s.receive p bs = s.setPorts i := by
  rw [State.receive, h]

/-- Bytes that complete a frame change the Port Interface, and the frame is taken. -/
theorem receive_of_some {f : List Byte} (h : s.ports.bytes p bs = (i, some f)) :
    s.receive p bs = (s.setPorts i).takeFrame p f := by
  rw [State.receive, h]

theorem exec_bytes_of_none (hr : s.phase = .running) (h : s.ports.bytes p bs = (i, none)) :
    exec (.requestFrameComplete p bs) s = .next (s.setPorts i) := by
  rw [exec_requestFrameComplete hr, receive_of_none h]

/-- Bytes that a port ignores leave the whole state. -/
theorem exec_bytes_of_deaf (hr : s.phase = .running) (h : ∀ b, s.ports.byte p b = (s.ports, none)) (bs : List Byte) :
    exec (.requestFrameComplete p bs) s = .next s :=
  exec_bytes_of_none hr (bytes_of_deaf h bs)

/-- A byte that completes no frame is taken before the bytes that follow it. -/
theorem exec_bytes_cons_of_none (hr : s.phase = .running) (h : (s.ports.bytes p [b]).2 = none) :
    exec (.requestFrameComplete p (b :: bs)) s
      = exec (.requestFrameComplete p bs) { s with ports := (s.ports.bytes p [b]).1 } := by
  rw [bytes_singleton] at h ⊢
  have hrest : s.receive p (b :: bs) = (s.setPorts (s.ports.byte p b).1).receive p bs := by
    simp only [State.receive, bytes_cons, if_pos h, State.setPorts_ports]
    rfl
  rw [exec_requestFrameComplete hr, hrest]
  exact (exec_requestFrameComplete (s := s.setPorts (s.ports.byte p b).1) hr).symm

/-- The bytes that follow a check byte are ignored. -/
theorem exec_bytes_cons_of_some (hr : s.phase = .running) (h : (s.ports.bytes p [b]).2 ≠ none) :
    exec (.requestFrameComplete p (b :: bs)) s = exec (.requestFrameComplete p [b]) s := by
  rw [bytes_singleton] at h
  simp only [exec_requestFrameComplete hr, State.receive, bytes_cons, if_neg h]

/-- A byte before the check byte joins the frame under way. -/
theorem exec_byte_more (hr : s.phase = .running) (h : Collecting s.ports got p)
    (hb : got.length < 3 ∨ got.length = 3 ∧ b.toNat ≤ 60 ∨ 4 ≤ got.length ∧ got.length < 4 + (got.getD 3 0).toNat) :
    exec (.requestFrameComplete p [b]) s = .next (s.setPorts (collectedOn s.ports (got ++ [b]) p)) :=
  exec_bytes_of_none hr (by rw [bytes_singleton, byte_of_collecting h, collect_more hb]; rfl)

/-- The check byte ends the frame under way and hands it over. -/
theorem bytes_complete (h : Collecting i got p) (h4 : 4 ≤ got.length) (hl : got.length = 4 + (got.getD 3 0).toNat)
    (hm : (got.getD 3 0).toNat ≤ 60) : i.bytes p [b] = (endedOn i p, some (got ++ [b])) := by
  rw [bytes_singleton, byte_of_collecting h, collect_complete h4 hl hm]
  rfl

theorem bytes_tooLong (h : Collecting i got p) (h3 : got.length = 3) (hb : 60 < b.toNat) :
    i.bytes p [b] = (endedOn i p, none) := by
  rw [bytes_singleton, byte_of_collecting h, collect_tooLong h3 hb]
  rfl

/-- A length byte above 60 discards the frame under way. -/
theorem exec_byte_tooLong (hr : s.phase = .running) (h : Collecting s.ports got p) (h3 : got.length = 3)
    (hb : 60 < b.toNat) : exec (.requestFrameComplete p [b]) s = .next (s.setPorts (endedOn s.ports p)) :=
  exec_bytes_of_none hr (bytes_tooLong h h3 hb)

/-- A frame under way of which bytes have come is the one the port has collected. -/
theorem collected_of_collecting (h : Collecting i got p) (hne : got ≠ []) : i.collected p = some got := by
  cases p with
  | a | b =>
    simp only [Collecting] at h
    simp only [PortInterfaces.collected, h]
  | s =>
    obtain h := h.resolve_right fun h => hne h.2
    simp only [PortInterfaces.collected, h]

theorem exec_lengthByteAbove60 (hr : s.phase = .running) (h : Collecting s.ports got p) (h3 : got.length = 3)
    (hb : 60 < b.toNat) : exec (.lengthByteAbove60 p b) s = .next (s.setPorts (endedOn s.ports p)) := by
  have hcollected := collected_of_collecting h (by rintro rfl; cases h3)
  have hdue : (s.ports.collected p).map List.length = some 3 ∧ Config.maxPayload < b.toNat :=
    ⟨by rw [hcollected, Option.map_some, h3], hb⟩
  calc exec (.lengthByteAbove60 p b) s
      = .next (whenRunning (State.receive p [b]) s) := congrArg Host.Outcome.next (if_pos hdue)
    _ = .next (s.setPorts (endedOn s.ports p)) := exec_byte_tooLong hr h h3 hb

end Receive

/-! ## Select periods on Ports A and B (R173, R174) -/

/-- The port of a synchronous interface. -/
def portOf : SyncPort → Port
  | .a => .a
  | .b => .b

/-- The Port Interfaces with the select period of Port A or B replaced. -/
def withPeriod (i : PortInterfaces) (p : SyncPort) (x : SelectPeriod) : PortInterfaces :=
  i.setSync p { i.sync p with period := x }

section Period

variable {s : State} {p : SyncPort} {i : PortInterfaces} {b : Byte}

theorem byte_sync : i.byte (portOf p) b =
    (i.setSync p ((i.sync p).byte i.unitAddress b).1, ((i.sync p).byte i.unitAddress b).2) := by
  cases p <;> rfl

theorem sync_withPeriod {x : SelectPeriod} : ((withPeriod i p x).sync p).period = x := by cases p <;> rfl

theorem withPeriod_withPeriod {x y : SelectPeriod} : withPeriod (withPeriod i p x) p y = withPeriod i p y := by
  cases p <;> rfl

theorem withPeriod_self : withPeriod i p (i.sync p).period = i := by cases p <;> rfl

/-- The transfer byte opens the select period. -/
theorem byte_of_closed (h : (i.sync p).period = .closed) :
    i.byte (portOf p) b = (i.setSync p ((i.sync p).openPeriod i.unitAddress b), none) := by
  rw [byte_sync]
  simp only [SyncInterface.byte, h]

theorem byte_of_ignored (h : (i.sync p).period = .ignored) : i.byte (portOf p) b = (i, none) := by
  rw [byte_sync]
  simp only [SyncInterface.byte, h]
  cases p <;> rfl

/-- Under a READ each byte clocked in clocks one byte of the frame out. -/
theorem byte_of_read {rest : List Byte} (h : (i.sync p).period = .read rest) :
    i.byte (portOf p) b = (withPeriod i p (.read rest.tail), none) := by
  rw [byte_sync]
  simp only [SyncInterface.byte, h]
  rfl

theorem bytes_of_read {rest : List Byte} (h : (i.sync p).period = .read rest) (bs : List Byte) :
    i.bytes (portOf p) bs = (withPeriod i p (.read (rest.drop bs.length)), none) := by
  induction bs generalizing i rest with
  | nil => rw [bytes_nil, List.length_nil, List.drop_zero, ← h, withPeriod_self]
  | cons b bs ih =>
    rw [bytes_cons, byte_of_read h, if_pos rfl, ih sync_withPeriod, withPeriod_withPeriod, List.length_cons,
      ← List.drop_one, List.drop_drop, Nat.add_comm]

/-- A WRITE transfer byte opens a period that collects the frame that follows it. -/
theorem bytes_write {f : List Byte} (h : (i.sync p).period = .closed) (hf : wholeFrame f = true) :
    i.bytes (portOf p) (0x01 :: f) = (withPeriod i p .ignored, some f) := by
  have hne : f ≠ [] := by rintro rfl; exact absurd hf (by decide)
  rw [bytes_cons, byte_of_closed h, if_pos rfl, bytes_of_whole (got := []) hf hne _ rfl]
  all_goals cases p <;> rfl

theorem exec_portReadTransfer (hr : s.phase = .running) (h : (s.ports.sync p).period = .closed) :
    exec (.portReadTransfer p) s
      = .next (s.setPorts (s.ports.setSync p ((s.ports.sync p).takeSlot s.ports.unitAddress))) :=
  congrArg Host.Outcome.next ((whenRunning_of hr).trans (if_pos h))

/-- A single byte in a closed period: 0x01 opens a WRITE, 0x02 is the READ transfer, any other is ignored with the rest
of its period. -/
theorem exec_transferByte (hr : s.phase = .running) (h : (s.ports.sync p).period = .closed) :
    (b = 0x01 → exec (.requestFrameComplete (portOf p) [b]) s = .next (s.setPorts (withPeriod s.ports p (.write []))))
    ∧ (b = 0x02 → exec (.requestFrameComplete (portOf p) [b]) s = exec (.portReadTransfer p) s)
    ∧ (b ≠ 0x01 → b ≠ 0x02 →
      exec (.requestFrameComplete (portOf p) [b]) s = .next (s.setPorts (withPeriod s.ports p .ignored))) := by
  have hopen := exec_bytes_of_none hr (bytes_singleton.trans (byte_of_closed (b := b) h))
  refine ⟨?_, ?_, fun h1 h2 => ?_⟩
  · rintro rfl
    exact hopen
  · rintro rfl
    rw [hopen, exec_portReadTransfer hr h]
    rfl
  · rw [hopen, SyncInterface.openPeriod, if_neg h1, if_neg h2]
    rfl

end Period

/-! ## Port S (R175, R176) -/

theorem byte_of_waitingIdle {i : PortInterfaces} (h : i.s.receiver = .waitingIdle) (b : Byte) :
    i.byte .s b = (i, none) := by
  simp only [PortInterfaces.byte, ReceiverS.byte, h]
  rw [← h]

/-- The frame of the response in transmission begins on STXD; nothing else of the transmitter changes. -/
theorem exec_responseTransmissionStart {s : State} {x : Transmission} (hr : s.phase = .running)
    (h : s.ports.s.transmitting = some x) :
    exec .responseTransmissionStart s = .next (s.setTransmitter (some { x with started := true }) s.ports.s.waiting) := by
  refine congrArg Host.Outcome.next ((whenRunning_of hr).trans ?_)
  simp only [h]

/-- At the end of a response's frame the response that waits takes its place. -/
theorem exec_responseTransmissionEnd {s : State} {f : List Byte} (hr : s.phase = .running)
    (h : s.ports.s.transmitting = some ⟨f, true⟩) :
    exec .responseTransmissionEnd s = .next (s.setTransmitter (s.ports.s.waiting.map fun f => ⟨f, false⟩) none) :=
  congrArg Host.Outcome.next ((whenRunning_of hr).trans (if_pos (by rw [h]; rfl)))

theorem respond_s_of_none {i : PortInterfaces} {frame : List Byte} (h : i.s.transmitting = none) :
    i.respond .s frame = { i with s := { i.s with transmitting := some ⟨frame, false⟩ } } := by
  simp only [PortInterfaces.respond, AsyncInterface.accept, h]

theorem respond_s_of_some {i : PortInterfaces} {frame : List Byte} (h : i.s.transmitting ≠ none) :
    i.respond .s frame = { i with s := { i.s with waiting := some frame } } := by
  obtain ⟨x, hx⟩ := Option.ne_none_iff_exists'.1 h
  simp only [PortInterfaces.respond, AsyncInterface.accept, hx]

/-! ## What SDO carries (R173, log entry 11) -/

theorem sdo_of_read {i : SyncInterface} {rest : List Byte} (h : i.period = .read rest) : i.sdo = rest.headD 0 := by
  simp only [SyncInterface.sdo, h]

theorem sdo_of_no_read {i : SyncInterface} (h : ∀ rest, i.period ≠ .read rest) : i.sdo = 0 := by
  unfold SyncInterface.sdo
  split
  · rename_i rest hrest
    exact absurd hrest (h rest)
  all_goals rfl

/-! ## The events together -/

/-- What holds of every row of a table holds of the row found in it. -/
theorem of_mem {α : Type} {l : List α} {P : α → Prop} {x : α} (hx : x ∈ l) (h : ∀ y ∈ l, P y) : P x := h x hx

/-- Settles O59: each port by the frame it collects, its period or its receiver; the codes by their tables. -/
theorem portsReceiveAndTransmit : Obligations.PortsReceiveAndTransmit := by
  refine ⟨fun s header tag code payload f hp hf => ?_, fun s hr => ?_, fun i frame => ?_, fun s rest bytes hr => ?_,
    fun i => ?_, fun s b hr => ?_, fun s bytes hr => ?_, fun s got b hr => ?_, fun s p b bs hr => ?_,
    fun p t x s => ⟨rfl, rfl⟩, fun bytes k d n => ⟨rfl, rfl, rfl, rfl, rfl, rfl, rfl, rfl, rfl, rfl, rfl⟩, rfl, ?_⟩
  · have hwhole : wholeFrame f = true := hf ▸ wholeFrame_buildFrame hp
    have hne : f ≠ [] := by rintro rfl; exact absurd hwhole (by decide)
    exact ⟨fun h => bytes_write (p := .a) h hwhole, fun h => bytes_write (p := .b) h hwhole,
      fun h => bytes_of_whole (p := .s) (got := []) hwhole hne (Or.inr ⟨h, rfl⟩) rfl⟩
  · refine ⟨fun p h => exec_portReadTransfer hr h, fun p => congrArg Host.Outcome.next (whenRunning_of hr),
      fun length got hl h3 => ?_, congrArg Host.Outcome.next (whenRunning_of hr),
      congrArg Host.Outcome.next (whenRunning_of hr), fun f started h => exec_responseTransmissionStart hr h,
      fun f h hw => ?_, fun f f' h hw => ?_⟩
    · exact ⟨fun h => exec_lengthByteAbove60 (p := .a) hr h h3 hl, fun h => exec_lengthByteAbove60 (p := .b) hr h h3 hl,
        fun h => exec_lengthByteAbove60 (p := .s) hr (Or.inl h) h3 hl⟩
    · rw [exec_responseTransmissionEnd hr h, hw]
      exact congrArg (fun w => Host.Outcome.next (s.setTransmitter none w)) hw.symm
    · rw [exec_responseTransmissionEnd hr h, hw]
      rfl
  · exact ⟨rfl, rfl, respond_s_of_none, respond_s_of_some⟩
  · exact ⟨fun h => exec_bytes_of_none hr (bytes_of_read (p := .a) h bytes),
      fun h => exec_bytes_of_none hr (bytes_of_read (p := .b) h bytes)⟩
  · refine ⟨fun b rest h => sdo_of_read h, ?_⟩
    rintro (h | h | h | ⟨got, h⟩)
    · exact sdo_of_read h
    all_goals exact sdo_of_no_read fun rest => by rw [h]; exact SelectPeriod.noConfusion
  · exact ⟨exec_transferByte (p := .a) hr, exec_transferByte (p := .b) hr⟩
  · exact ⟨fun h => exec_bytes_of_deaf hr (fun _ => byte_of_ignored (p := .a) h) bytes,
      fun h => exec_bytes_of_deaf hr (fun _ => byte_of_ignored (p := .b) h) bytes,
      fun h => exec_bytes_of_deaf hr (byte_of_waitingIdle h) bytes⟩
  · refine ⟨fun hb => ?_, fun h4 hl hm => ?_, fun h3 hb => ?_⟩
    · exact ⟨fun h => exec_byte_more (p := .a) hr h hb, fun h => exec_byte_more (p := .b) hr h hb,
        fun h => exec_byte_more (p := .s) hr h hb⟩
    · exact ⟨fun h => bytes_complete (p := .a) h h4 hl hm, fun h => bytes_complete (p := .b) h h4 hl hm,
        fun h => bytes_complete (p := .s) (Or.inl h) h4 hl hm⟩
    · exact ⟨fun h => exec_byte_tooLong (p := .a) hr h h3 hb, fun h => exec_byte_tooLong (p := .b) hr h h3 hb,
        fun h => exec_byte_tooLong (p := .s) hr (Or.inl h) h3 hb⟩
  · exact ⟨exec_bytes_of_none hr bytes_nil, exec_bytes_cons_of_none hr, exec_bytes_cons_of_some hr⟩
  · exact fun d code h => of_mem (P := fun x => x.1.code = x.2) h (by decide)

end Sys2Proof.Proofs.Ports

/-! # Ports: the request catalogue and the configuration items -/

namespace Sys2Proof.Proofs.Ports

open Sys2Proof Sys2Proof.Machine Sys2Proof.Proofs.ChannelPlan Sys2Proof.Proofs.ChannelSequencer
  Sys2Proof.Proofs.LevelMeasurement

/-! ## The check byte (R171) -/

/-- One byte more is one more round of eight shifts. -/
theorem crc8_concat (bytes : List Byte) (b : Byte) : crc8 (bytes ++ [b])
    = Nat.repeat (fun c : Byte => if c.getLsbD 7 then (c <<< 1) ^^^ 0x07 else c <<< 1) 8 (crc8 bytes ^^^ b) := by
  have hshift : (fun c : Byte => if c.getLsbD 7 then (c <<< 1) ^^^ 0x07 else c <<< 1) = crcShift := by
    funext c
    rw [crcShift, BitVec.msb_eq_getLsbD_last]
  rw [hshift, crc8, List.foldl_append]
  rfl

/-! ## Words and levels that bytes spell (R184) -/

theorem beNat_three (a b c : Byte) : beNat [a, b, c] = number3 a b c := by
  simp only [beNat, List.foldl_cons, List.foldl_nil, number3]
  omega

theorem ofNat_beNat_two (a b : Byte) : BitVec.ofNat 16 (beNat [a, b]) = a ++ b :=
  BitVec.eq_of_toInt_eq (levelOfNat_two a b)

theorem levelOfNat_number2 (a b : Byte) : levelOfNat (number2 a b) = levelOf a b := by
  have ha := a.isLt
  have hb := b.isLt
  have hlt : number2 a b < 2 ^ 16 := by rw [number2]; omega
  rw [levelOfNat, BitVec.toInt_eq_toNat_cond, BitVec.toNat_ofNat, Nat.mod_eq_of_lt hlt, levelOf]
  split_ifs <;> omega

theorem number2_eq (a b : Byte) : beNat [a, b] = number2 a b := beNat_two a b

/-! ## The records of entries, byte by byte (R184) -/

theorem parseEntry_bytes (b0 b1 b2 b3 b4 b5 b6 b7 b8 b9 b10 b11 b12 b13 b14 b15 b16 b17 b18 b19 : Byte) :
    parseEntry [b0, b1, b2, b3, b4, b5, b6, b7, b8, b9, b10, b11, b12, b13, b14, b15, b16, b17, b18, b19]
      = { service := b0.toNat
          rxFreq := number3 b1 b2 b3
          txFreq := number3 b4 b5 b6
          gainTarget := number2 b7 b8
          gainMode := b9.toNat
          rampRate := if b10.getLsbD 0 then some b11.toNat else none
          squelchOpen := levelOf b12 b13
          squelchClose := levelOf b14 b15
          squelchHoldoff := b16.toNat
          squelchSource := if b10.getLsbD 1 then some b17.toNat else none
          reflLimit := if b10.getLsbD 2 then some (levelOf b18 b19) else none } := by
  simp only [parseEntry, fieldAt, bitAt, List.drop_succ_cons, List.drop_zero, List.take_succ_cons, List.take_zero,
    levelOfNat_number2, beNat_one, number2_eq, beNat_three, BitVec.testBit_toNat]

theorem parseLicence_bytes (b0 b1 b2 b3 b4 b5 b6 b7 b8 b9 b10 b11 b12 b13 b14 : Byte) :
    parseLicence [b0, b1, b2, b3, b4, b5, b6, b7, b8, b9, b10, b11, b12, b13, b14]
      = if b0.getLsbD 0 then some
          { txLow := number3 b1 b2 b3
            txHigh := number3 b4 b5 b6
            gainCeiling := number2 b7 b8
            rxLow := if b0.getLsbD 1 then some (number3 b9 b10 b11) else none
            rxHigh := if b0.getLsbD 2 then some (number3 b12 b13 b14) else none }
        else none := by
  simp only [parseLicence, fieldAt, bitAt, List.drop_succ_cons, List.drop_zero, List.take_succ_cons, List.take_zero,
    beNat_one, number2_eq, beNat_three, BitVec.testBit_toNat]

/-! ## Requests with fields (R178) -/

section Fields

variable (a b c d e : Byte)

theorem parse_readEntry : parseRequest 0x23 [a, b] = .request .plan (.readEntry a.toNat b.toNat) := by
  change Parsed.request .plan (.readEntry (fieldAt [a, b] 0 1) (fieldAt [a, b] 1 1)) = _
  rw [fieldAt_one, fieldAt_one]
  rfl

theorem parse_armActivation :
    parseRequest 0x24 [a, b, c, d, e] = .request .plan (.armActivation (a ++ b) c.toNat (d ++ e)) := by
  change Parsed.request .plan (.armActivation (BitVec.ofNat 16 (beNat [a, b])) (beNat [c])
    (BitVec.ofNat 16 (beNat [d, e]))) = _
  rw [ofNat_beNat_two, ofNat_beNat_two, beNat_one]

theorem parse_activateNow : parseRequest 0x26 [a, b] = .request .plan (.activateNow (a ++ b)) := by
  change Parsed.request .plan (.activateNow (BitVec.ofNat 16 (beNat [a, b]))) = _
  rw [ofNat_beNat_two]

theorem channelOwner_chan {ch : Chan} (h : a.toNat = ch.val) : channelOwner a = .sequencer ch := by
  rw [channelOwner, h, chanOf_val]

theorem channelOwner_none (h : 8 ≤ a.toNat) : channelOwner a = .sequencerBlock := by
  rw [channelOwner, chanOf_none.2 h]

theorem parse_channel {o : Owner} (h : channelOwner a = o) :
    parseRequest 0x27 [a] = .request o (.restartChannel a) ∧ parseRequest 0x28 [a] = .request o (.readChannel a) := by
  subst h
  exact ⟨rfl, rfl⟩

theorem parse_setMode : parseRequest 0x30 [a] = .request .mode (.setMode a.toNat) :=
  congrArg (fun n => Parsed.request .mode (.setMode n)) (beNat_one a)

theorem parse_setEpoch : parseRequest 0x35 [a, b, c] = .request .timebase (.setEpoch a.toNat (number2 b c)) := by
  change Parsed.request .timebase (.setEpoch (beNat [a]) (beNat [b, c])) = _
  rw [beNat_one, number2_eq]

theorem parse_readConditions : parseRequest 0x40 [a] = .request .conditions (.readConditions a.toNat) :=
  congrArg (fun n => Parsed.request .conditions (.readConditions n)) (beNat_one a)

theorem parse_setAttention :
    parseRequest 0x42 [a, b, c, d] = .request .conditions (.setAttention (a ++ b ++ c) d.toNat) := by
  change Parsed.request .conditions (.setAttention (BitVec.ofNat 24 (beNat [a, b, c])) (beNat [d])) = _
  rw [mask_three, beNat_one]

theorem parse_readReports : parseRequest 0x50 [a] = .request .level (.readReports a.toNat) :=
  congrArg (fun n => Parsed.request .level (.readReports n)) (beNat_one a)

theorem parse_readLicence : parseRequest 0x63 [a, b] = .request .licence (.readLicence a.toNat b.toNat) := by
  change Parsed.request .licence (.readLicence (beNat [a]) (beNat [b])) = _
  rw [beNat_one, beNat_one]

end Fields

/-- A payload of another size than its request's is malformed (R172 step 4). -/
theorem sized_of_ne {payload : List Byte} {n : Nat} {x : Parsed} (h : payload.length ≠ n) :
    sized payload n x = .malformed := if_neg h

/-- A code outside a list is none of the numbers of its codes. -/
theorem ofNat_not_mem {codes : List Byte} {code : Byte} (h : code ∉ codes) {n : Nat} (hn : code.toNat = n) :
    BitVec.ofNat 8 n ∉ codes := by
  rwa [← hn, BitVec.ofNat_toNat, BitVec.setWidth_eq]

/-- A code outside the catalogue is unknown. -/
theorem parse_unknown {code : Byte} {payload : List Byte} (h : code ∉
    ([ 0x01, 0x02, 0x10, 0x11, 0x12, 0x13, 0x20, 0x21, 0x22, 0x23, 0x24, 0x25, 0x26, 0x27, 0x28, 0x30, 0x31, 0x32, 0x33,
       0x34, 0x35, 0x40, 0x41, 0x42, 0x43, 0x50, 0x51, 0x60, 0x61, 0x62, 0x63] : List Byte)) :
    parseRequest code payload = .unknown := by
  unfold parseRequest
  split
  case h_32 => rfl
  all_goals
    rename_i hcode
    exact absurd (by decide) (ofNat_not_mem h hcode)

/-! ## Configuration items (R181, R182) -/

section Items

variable {code : Byte} {i : Item}

theorem parse_configure (h : Item.ofCode code.toNat = some i) (bytes : List Byte) :
    parseRequest 0x33 (code :: bytes) =
      if i.readOnly = true ∨ bytes.length = i.valueBytes then .request i.owner (.configure i bytes) else .malformed := by
  change parseConfigure (code :: bytes) = _
  simp only [parseConfigure, h, Bool.or_eq_true, decide_eq_true_eq]

theorem parse_readConfig (h : Item.ofCode code.toNat = some i) (bytes : List Byte) :
    parseRequest 0x34 (code :: bytes) =
      if bytes.length = i.paramBytes then .request i.owner (.readConfig i bytes) else .malformed := by
  change parseReadConfig (code :: bytes) = _
  simp only [parseReadConfig, h]

theorem parse_badItem (h : Item.ofCode code.toNat = none) (bytes : List Byte) :
    parseRequest 0x33 (code :: bytes) = .badItem ∧ parseRequest 0x34 (code :: bytes) = .badItem := by
  change parseConfigure (code :: bytes) = _ ∧ parseReadConfig (code :: bytes) = _
  simp only [parseConfigure, parseReadConfig, h, and_self]

theorem ofCode_none {n : Nat} (h : n = 0 ∨ n = 0x0F ∨ 0x12 < n) : Item.ofCode n = none := by
  unfold Item.ofCode
  split
  case h_18 => rfl
  all_goals omega

end Items

end Sys2Proof.Proofs.Ports

/-! # Ports: frames judged and taken -/

namespace Sys2Proof.Proofs.Ports

open Sys2Proof Sys2Proof.Machine Sys2Proof.Proofs.ChannelPlan Sys2Proof.Proofs.PlanActivation
  Sys2Proof.Proofs.Authority

/-! ## The parts of a frame (R184) -/

section Parts

variable {address a : BitVec 4} {p : Port} {f : List Byte} {header tag code : Byte} {payload : List Byte}

theorem framePayload_buildFrame : framePayload (buildFrame header tag code payload) = payload :=
  List.dropLast_concat

theorem crc8_buildFrame :
    crc8 (buildFrame header tag code payload).dropLast = (buildFrame header tag code payload).getLastD 0 := by
  rw [buildFrame_eq, List.dropLast_concat, List.getLastD_concat]

theorem parseFrame_buildFrame : parseFrame (buildFrame header tag code payload) = parseRequest code payload := by
  rw [parseFrame, framePayload_buildFrame]
  rfl

/-- A request header has its kind bit and reserved bits clear and carries the unit address in its high four bits. -/
theorem requestHeader_nibbles (a : BitVec 4) :
    (requestHeader a).extractLsb' 0 4 = 0 ∧ (requestHeader a).extractLsb' 4 4 = a := by
  revert a
  decide

/-! ## Judging (R171) -/

/-- A frame with a wrong check byte, a header of another kind, or an address that is neither this unit's nor Port S's
broadcast is discarded. -/
theorem judgeFrame_discarded (h : crc8 f.dropLast ≠ f.getLastD 0 ∨ (f.getD 0 0).extractLsb' 0 4 ≠ 0
    ∨ (f.getD 0 0).extractLsb' 4 4 = 15 ∧ p ≠ .s
    ∨ (f.getD 0 0).extractLsb' 4 4 ≠ 15 ∧ (f.getD 0 0).extractLsb' 4 4 ≠ address) :
    judgeFrame address p f = .discarded := by
  unfold judgeFrame
  split_ifs with hframe
  · obtain ⟨-, hcrc, hkind⟩ := hframe
    rcases h with h | h | ⟨h15, hs⟩ | ⟨h15, ha⟩
    · exact absurd hcrc h
    · exact absurd hkind h
    · rw [judgeAddress, frameByte, if_pos h15, if_neg hs]
    · rw [judgeAddress, frameByte, if_neg h15, if_neg ha]
  · rfl

/-- A request frame is judged by the address in its header alone. -/
theorem judgeFrame_buildFrame (h : payload.length ≤ 60) :
    judgeFrame address p (buildFrame (requestHeader a) tag code payload) = judgeAddress address p a := by
  obtain ⟨hkind, haddress⟩ := requestHeader_nibbles a
  have hframe : wholeFrame (buildFrame (requestHeader a) tag code payload) = true
      ∧ crc8 (buildFrame (requestHeader a) tag code payload).dropLast
        = (buildFrame (requestHeader a) tag code payload).getLastD 0
      ∧ (frameByte (buildFrame (requestHeader a) tag code payload) 0).extractLsb' 0 4 = 0 :=
    ⟨wholeFrame_buildFrame h, crc8_buildFrame, hkind⟩
  rw [judgeFrame, if_pos hframe]
  exact congrArg (judgeAddress address p) haddress

theorem judgeFrame_addressed (h : payload.length ≤ 60) (h15 : a ≠ 15) :
    judgeFrame a p (buildFrame (requestHeader a) tag code payload) = .addressed := by
  rw [judgeFrame_buildFrame h, judgeAddress, if_neg h15, if_pos rfl]

theorem judgeFrame_broadcast (h : payload.length ≤ 60) :
    judgeFrame address .s (buildFrame 0xF0 tag code payload) = .broadcast :=
  judgeFrame_buildFrame (a := 15) h

end Parts

/-! ## Taking (R172, R34) -/

section Taking

variable {s : State} {p : Port} {f bytes payload : List Byte} {i : PortInterfaces} {tag code : Byte}

theorem takeFrame_discarded (h : judgeFrame s.ports.unitAddress p f = .discarded) : s.takeFrame p f = s := by
  rw [State.takeFrame, h]

theorem takeFrame_addressed (h : payload.length ≤ 60) (h15 : s.ports.unitAddress ≠ 15) :
    s.takeFrame p (buildFrame (requestHeader s.ports.unitAddress) tag code payload) =
      if s.licence.loading then s.answer p (some tag) (.plain .busy .startUpLoad)
      else s.dispatch p tag (parseRequest code payload) := by
  rw [State.takeFrame, judgeFrame_addressed h h15]
  simp only [State.takeAddressed, parseFrame_buildFrame]
  rfl

theorem takeFrame_broadcast (h : payload.length ≤ 60) :
    s.takeFrame .s (buildFrame 0xF0 tag code payload) =
      if s.licence.loading = false ∧ code = 0x31 ∧ payload = [] then
        s.send [.request .mode .s none .siteStandby]
      else s := by
  rw [State.takeFrame, judgeFrame_broadcast h]
  simp only [State.takeBroadcast, framePayload_buildFrame, Bool.and_eq_true, Bool.not_eq_true', decide_eq_true_eq,
    List.isEmpty_iff, and_assoc]
  rfl

/-- The 18 bytes of READ STATUS, field by field (R180). -/
theorem statusBytes_eq (s : State) : s.statusBytes = [s.mode.mode.code] ++ s.mode.cause.bytes
    ++ [portCodeOr s.authority.holder, portCodeOr s.authority.reserve]
    ++ (match s.plan.pendingActivation with
      | none => [0, 0, 0, 255]
      | some x => [1] ++ natBytes 2 x.target.toNat ++ [BitVec.ofNat 8 (x.overdue.getD 255)])
    ++ [if s.ready then 1 else 0, s.licence.storeState.code]
    ++ natBytes 2 s.timebase.counter.toNat ++ natBytes 2 s.plan.number.toNat
    ++ natBytes 2 s.plan.revision.toNat ++ [BitVec.ofNat 8 s.level.reports.length] := by
  rw [State.statusBytes, natBytes_one]
  cases s.plan.pendingActivation <;> rfl

/-- A frame addressed to the unit after the load completes what it spells (log entry 4). -/
theorem completes_of (hb : s.ports.bytes p bytes = (i, some f)) (hj : judgeFrame s.ports.unitAddress p f = .addressed)
    (hl : s.licence.loading = false) : s.completes p bytes (parseFrame f) = true := by
  simp only [State.completes, hb, hj, hl, decide_true, Bool.not_false, Bool.and_self]

theorem exec_identify_of (h : s.completes p bytes .identify = true) :
    exec (.identify p bytes) s = exec (.requestFrameComplete p bytes) s :=
  congrArg Host.Outcome.next (if_pos h)

theorem exec_readStatus_of (h : s.completes p bytes .readStatus = true) :
    exec (.readStatus p bytes) s = exec (.requestFrameComplete p bytes) s :=
  congrArg Host.Outcome.next (if_pos h)

/-! ## The event that completes a frame -/

theorem exec_frame (hr : s.phase = .running) (hb : s.ports.bytes p bytes = (i, some f)) :
    exec (.requestFrameComplete p bytes) s = .next ((s.setPorts i).takeFrame p f) := by
  rw [exec_requestFrameComplete hr, receive_of_some hb]

/-- The Port Interfaces keep their unit address while a frame comes. -/
theorem unitAddress_of_bytes {x : Option (List Byte)} (hb : s.ports.bytes p bytes = (i, x)) :
    i.unitAddress = s.ports.unitAddress := by
  have hkept := bytes_unitAddress (i := s.ports) (p := p) bytes
  rwa [hb] at hkept

theorem exec_discarded (hr : s.phase = .running) (hb : s.ports.bytes p bytes = (i, some f))
    (h : judgeFrame s.ports.unitAddress p f = .discarded) :
    exec (.requestFrameComplete p bytes) s = .next (s.setPorts i) := by
  rw [exec_frame hr hb, takeFrame_discarded]
  rwa [State.setPorts_ports, unitAddress_of_bytes hb]

theorem exec_addressed (hr : s.phase = .running) (h : payload.length ≤ 60) (h15 : s.ports.unitAddress ≠ 15)
    (hb : s.ports.bytes p bytes = (i, some (buildFrame (requestHeader s.ports.unitAddress) tag code payload))) :
    exec (.requestFrameComplete p bytes) s = .next
      (if s.licence.loading then State.answer p (some tag) (.plain .busy .startUpLoad) (s.setPorts i)
      else (s.setPorts i).dispatch p tag (parseRequest code payload)) := by
  rw [exec_frame hr hb]
  rw [← unitAddress_of_bytes hb] at h15 ⊢
  exact congrArg Host.Outcome.next (takeFrame_addressed (s := s.setPorts i) h h15)

/-- An addressed request after the load: what steps 3 to 5 of R172 do with it. -/
theorem exec_dispatched (hr : s.phase = .running) (hl : s.licence.loading = false) (h : payload.length ≤ 60)
    (h15 : s.ports.unitAddress ≠ 15)
    (hb : s.ports.bytes p bytes = (i, some (buildFrame (requestHeader s.ports.unitAddress) tag code payload)))
    {x : Parsed} (hx : parseRequest code payload = x) :
    exec (.requestFrameComplete p bytes) s = .next ((s.setPorts i).dispatch p tag x) := by
  rw [exec_addressed hr h h15 hb, hl, hx]
  rfl

theorem completes_of_request (hl : s.licence.loading = false) (h : payload.length ≤ 60)
    (h15 : s.ports.unitAddress ≠ 15)
    (hb : s.ports.bytes p bytes = (i, some (buildFrame (requestHeader s.ports.unitAddress) tag code payload)))
    {x : Parsed} (hx : parseRequest code payload = x) : s.completes p bytes x = true := by
  rw [← hx, ← parseFrame_buildFrame (header := requestHeader s.ports.unitAddress) (tag := tag)]
  exact completes_of hb (judgeFrame_addressed h h15) hl

theorem exec_identify (hr : s.phase = .running) (hl : s.licence.loading = false) (h15 : s.ports.unitAddress ≠ 15)
    (hb : s.ports.bytes p bytes = (i, some (buildFrame (requestHeader s.ports.unitAddress) tag 0x01 []))) :
    exec (.identify p bytes) s = .next (State.answer p (some tag)
        (.done [0x08, 0x40, 0x01, s.ports.unitAddress.setWidth 8, portCode p]) (s.setPorts i))
      ∧ exec (.requestFrameComplete p bytes) s = exec (.identify p bytes) s := by
  have hcase := exec_identify_of (completes_of_request hl (Nat.zero_le _) h15 hb rfl)
  have hframe := exec_dispatched hr hl (Nat.zero_le _) h15 hb (x := .identify) rfl
  refine ⟨hcase.trans (hframe.trans ?_), hcase.symm⟩
  rw [State.dispatch, State.setPorts_ports, unitAddress_of_bytes hb]
  rfl

theorem exec_readStatus (hr : s.phase = .running) (hl : s.licence.loading = false) (h15 : s.ports.unitAddress ≠ 15)
    (hb : s.ports.bytes p bytes = (i, some (buildFrame (requestHeader s.ports.unitAddress) tag 0x02 []))) :
    exec (.readStatus p bytes) s = .next (State.answer p (some tag) (.done s.statusBytes) (s.setPorts i))
      ∧ exec (.requestFrameComplete p bytes) s = exec (.readStatus p bytes) s := by
  have hcase := exec_readStatus_of (completes_of_request hl (Nat.zero_le _) h15 hb rfl)
  have hframe := exec_dispatched hr hl (Nat.zero_le _) h15 hb (x := .readStatus) rfl
  exact ⟨hcase.trans hframe, hcase.symm⟩

theorem exec_broadcast (hr : s.phase = .running) (h : payload.length ≤ 60)
    (hb : s.ports.bytes .s bytes = (i, some (buildFrame 0xF0 tag code payload))) :
    exec (.requestFrameComplete .s bytes) s = .next
      (if s.licence.loading = false ∧ code = 0x31 ∧ payload = [] then
        (s.setPorts i).send [.request .mode .s none .siteStandby]
      else s.setPorts i) := by
  rw [exec_frame hr hb, takeFrame_broadcast h]
  rfl

end Taking

/-! ## Requests in the order sent (R172) -/

theorem asked_iff (o : Owner) (p : Port) (tag : Option Byte) (q : Request) (s s' : State) : Asked o p tag q s s' ↔
    s.TakesFirst (fun x => ∃ tag' q', x = .request o p tag' q') (.request o p tag q) s' := by
  refine take_iff fun x => ?_
  cases x <;> simp [Message.isRequest]

/-! ## The frames, the catalogue and the codes together -/

/-- Settles O58: the judgement by the parts of the frame, the taking by the judgement, the catalogue and the items row by
row. -/
theorem completeFrameJudgedAndTaken : Obligations.CompleteFrameJudgedAndTaken := by
  refine ⟨fun p bytes f i s hr hb => ⟨fun h => exec_discarded hr hb (judgeFrame_discarded h), ?_, ?_⟩,
    fun _ _ _ _ => rfl, by decide +kernel, rfl, crc8_concat, fun code o q h => ?_, rfl, rfl, fun code size payload h => ?_,
    fun code payload => parse_unknown, fun a b c d e => ?_, fun _ => rfl, ?_, fun code i o n k bytes h => ?_,
    fun code i o k bytes h => ?_, fun code bytes h => ?_, rfl, rfl, fun _ => ready_iff,
    fun n => ⟨natBytes_one n, natBytes_two n, natBytes_three n⟩, rfl, fun _ => rfl, rfl, rfl,
    fun _ _ => ⟨rfl, rfl, rfl, rfl⟩, rfl, rfl, rfl, rfl, rfl, rfl, rfl, rfl, rfl,
    fun _ => ⟨fun _ => portWith_some, portWith_eq_none, fun _ => portWith_some, portWith_eq_none⟩, asked_iff⟩
  · rintro a tag code payload hp rfl h15 rfl
    refine ⟨fun hl => ?_, fun hl => ⟨exec_dispatched hr hl hp h15 hb, exec_dispatched hr hl hp h15 hb,
      exec_dispatched hr hl hp h15 hb, fun o q => exec_dispatched hr hl hp h15 hb, ?_, ?_⟩⟩
    · rw [exec_addressed hr hp h15 hb, if_pos hl]
      rfl
    · rintro rfl rfl
      exact exec_identify hr hl h15 hb
    · rintro rfl rfl
      have hstatus := exec_readStatus hr hl h15 hb
      rw [statusBytes_eq] at hstatus
      exact hstatus
  · rintro tag code payload hp rfl rfl
    rw [exec_broadcast hr hp hb]
    refine ⟨fun hcode hpay hl => congrArg Host.Outcome.next (if_pos ⟨hl, hcode, hpay⟩),
      fun h => congrArg Host.Outcome.next (if_neg ?_)⟩
    rintro ⟨hl, hcode, hpay⟩
    rcases h with h | h | h
    · exact h hcode
    · exact h hpay
    · exact Bool.false_ne_true (hl.symm.trans h)
  · exact of_mem (P := fun x => parseRequest x.1 [] = .request x.2.1 x.2.2) h (by decide)
  · refine of_mem (P := fun x => payload.length ≠ x.2 → parseRequest x.1 payload = .malformed) h ?_
    simp only [List.forall_mem_cons]
    and_intros
    all_goals first | exact List.forall_mem_nil _ | exact sized_of_ne
  · exact ⟨parse_readEntry a b, parse_armActivation a b c d e, parse_activateNow a b,
      fun ch h => parse_channel a (channelOwner_chan a h), fun h => parse_channel a (channelOwner_none a h),
      parse_setMode a, parse_setEpoch a b c, parse_readConditions a, parse_setAttention a b c d, parse_readReports a,
      parse_readLicence a b⟩
  · intro n b0 b1 b2 b3 b4 b5 b6 b7 b8 b9 b10 b11 b12 b13 b14 b15 b16 b17 b18 b19
    rw [← parseEntry_bytes, ← parseLicence_bytes, ← fieldAt_first n []]
    exact ⟨rfl, rfl⟩
  · have hrow := of_mem (P := fun x => Item.ofCode x.1.toNat = some x.2.1
      ∧ x.2.1.readOnly = false ∧ x.2.1.owner = x.2.2.1 ∧ x.2.1.valueBytes = x.2.2.2.1
      ∧ x.2.1.paramBytes = x.2.2.2.2) h (by decide)
    dsimp only at hrow
    obtain ⟨hi, hro, rfl, rfl, rfl⟩ := hrow
    exact ⟨by simp only [parse_configure hi, hro, Bool.false_eq_true, false_or], parse_readConfig hi bytes⟩
  · have hrow := of_mem (P := fun x => Item.ofCode x.1.toNat = some x.2.1
      ∧ x.2.1.readOnly = true ∧ x.2.1.owner = x.2.2.1 ∧ x.2.1.paramBytes = x.2.2.2) h (by decide)
    dsimp only at hrow
    obtain ⟨hi, hro, rfl, rfl⟩ := hrow
    exact ⟨(parse_configure hi bytes).trans (if_pos (Or.inl hro)), parse_readConfig hi bytes⟩
  · refine parse_badItem (ofCode_none ?_) bytes
    rcases h with rfl | rfl | h
    exacts [Or.inl rfl, Or.inr (Or.inl rfl), Or.inr (Or.inr h)]

end Sys2Proof.Proofs.Ports
